-- ==== Sys2Proof/Word.lean ====
section
/-! DEFINITION. The words of the LT-320 (spec/00_scope.md, Conventions). -/

namespace Sys2Proof

/-- A 32-bit data word of the service port (R175). -/
abbrev Word := BitVec 32

/-- A belt position, 0..16,777,215, wrapping (R1; Conventions, Positions). -/
abbrev Pos := BitVec 24

/-- A station number, 0..31. -/
abbrev Station5 := BitVec 5

/-- A sighting sequence or a claim sequence, 0..255 (R71, R124). -/
abbrev Seq8 := BitVec 8

end Sys2Proof
end

