-- ==== Sys2Proof/Syntax.lean ====
section
/-! DEFINITION. The commands the block takes, one constructor per row of spec/opcode_table.json, in the table's order,
and the data they carry. -/

namespace Sys2Proof

/-- The name of an item (origin station, sequence) or of a claim (owner station, claim sequence)
(Conventions, Tags; R78, R119). -/
structure Tag where
  origin : Station5
  seq : Seq8
deriving DecidableEq, Repr

/-- The six assigned frame kinds (R27). -/
inductive FrameKind
  | sight | verdict | yield | claim | retire | mark
deriving DecidableEq, Repr

/-- What a frame carries beside its header, by kind (R27). The verdict field is as received, 0..3, and the length of
a CLAIM may be 0: the link controller does not judge field values. -/
inductive Payload
  | sight (seq : Seq8) (pos : Pos) (lane : BitVec 2) (cls : BitVec 4)
  | verdict (item : Tag) (verdict : BitVec 2)
  | yield (seq : Seq8)
  | claim (seq : Seq8) (group : BitVec 3) (start : Pos) (length : BitVec 16)
  | retire (item : Tag)
  | mark
deriving DecidableEq, Repr

/-- A frame as the stations apply it: sender, stamp and payload (R26). -/
structure Frame where
  sender : Station5
  stamp : Pos
  payload : Payload
deriving DecidableEq, Repr

/-- The levels of the encoder lines; `true` is high (R2). -/
structure EncLevels where
  a : Bool
  b : Bool
deriving DecidableEq, Repr

/-- The levels of the input pins that a device reset takes as present when it ends (R4, R67, R142). -/
structure InputLevels where
  enc : EncLevels
  sensors : Vector Bool 4
  aux : Vector Bool 4
deriving DecidableEq, Repr

/-- One command: one row of spec/opcode_table.json. -/
inductive Instr
  /-- ENCODER_COUNT (R2 to R8): the new levels of ENC_A and ENC_B. -/
  | encoderCount (levels : EncLevels)
  /-- START_BIT (R10, R25): another station's first asserted level. -/
  | startBit
  /-- FRAME_START (R29): the transmit section may start the head frame. -/
  | frameStart
  /-- LOST_ARBITRATION (R30). -/
  | lostArbitration
  /-- BIT_CLASH (R31). -/
  | bitClash
  /-- FRAME_FAULT (R32): the levels read on the line, one a bit time, from the start bit on; `false` is asserted. -/
  | frameFault (levels : List Bool)
  /-- FRAME_REJECTED (R33). -/
  | frameRejected
  /-- FAILED_ATTEMPT (R36): the sender reads its reject slot asserted. -/
  | failedAttempt
  /-- FRAME_TAKE (R34): the frame on the line at the end of a released reject slot. -/
  | frameTake (frame : Frame)
  /-- MARK_TIMER_EXPIRY (R43). -/
  | markTimerExpiry
  /-- JOIN_TIMEOUT (R55). -/
  | joinTimeout
  /-- SENSOR_INPUT_CHANGE (R67): the sensor and the level now read. -/
  | sensorInputChange (sensor : Fin 4) (level : Bool)
  /-- AUX_INPUT_CHANGE (R142): the auxiliary input and the level now read. -/
  | auxInputChange (input : Fin 4) (level : Bool)
  /-- DELAY_EXPIRY (R150). -/
  | delayExpiry (channel : Fin 4)
  /-- HIGH_WIDTH_EXPIRY (R151 to R153). -/
  | highWidthExpiry (channel : Fin 4)
  /-- LOW_WIDTH_EXPIRY (R152). -/
  | lowWidthExpiry (channel : Fin 4)
  /-- HOLD_CAP_EXPIRY (R154). -/
  | holdCapExpiry (channel : Fin 4)
  /-- START: a COMMAND write of code 1 (R52). -/
  | start
  /-- STOP: a COMMAND write of code 2 (R63). -/
  | stop
  /-- RESUME: a COMMAND write of code 3 (R62). -/
  | resume
  /-- POST_SIGHT: a COMMAND write of code 4 (R75). -/
  | postSight
  /-- POST_VERDICT: a COMMAND write of code 5 (R94). -/
  | postVerdict
  /-- RETIRE_ITEM: a COMMAND write of code 6 (R93). -/
  | retireItem
  /-- DROP_ITEM: a COMMAND write of code 7 (R92). -/
  | dropItem
  /-- FORCE_FIRE: a COMMAND write of code 8 (R158). -/
  | forceFire
  /-- COMMIT_FORM: a COMMAND write of code 9 (R146). -/
  | commitForm
  /-- POP_EVENT: a COMMAND write of code 10 (R171). -/
  | popEvent
  /-- UNASSIGNED_COMMAND: a COMMAND write of code 0 or 11..255 (R180). -/
  | unassignedCommand (code : BitVec 8)
  /-- TABLE_SEL: a write of the TABLE_SEL register (R182). -/
  | tableSel (word : Word)
  /-- REGISTER_WRITE: a write of a register with no behaviour of its own (R178). -/
  | registerWrite (number : BitVec 8) (word : Word)
  /-- CONFIG_READ: a configuration read (R185). -/
  | configRead (item : BitVec 8)
  /-- CONFIG_WRITE: a configuration write (R185). -/
  | configWrite (item : BitVec 8) (word : Word)
  /-- VOID_TRANSACTION: six bytes whose type byte is not 00h to 03h (R175). -/
  | voidTransaction (type number : BitVec 8) (word : Word)
  /-- DEVICE_RESET: power-on or a low level on RESETn; the levels are those present when the reset ends (R64). -/
  | deviceReset (levels : InputLevels)
  /-- DEVICE_RESET_WRITE: a write of the DEVICE_RESET register (R189). -/
  | deviceResetWrite (word : Word)
  /-- IDLE_GAP: the line has stayed released for 11 bit times (R25). -/
  | idleGap
deriving DecidableEq, Repr

end Sys2Proof
end

