-- ==== Sys2Proof/Config.lean ====
section
/-! DEFINITION. What the part fixes (spec/00_scope.md, Numbers common to all chapters) and the free values. -/

namespace Sys2Proof.Config

/-- IDENT and the IDENTITY item: part code 0320h, silicon revision 1, interface revision 1 (R178, R186). -/
def identity : Word := 0x03200101#32

/-- Track table capacity (R79). -/
def trackCapacity : Nat := 48

/-- Agenda capacity (R102). -/
def agendaCapacity : Nat := 64

/-- Claims table capacity (R120). -/
def claimsCapacity : Nat := 32

/-- Transmit queue capacity (R39). -/
def txqCapacity : Nat := 16

/-- Event queue capacity (R168). -/
def eventCapacity : Nat := 32

/-- Failed attempts after which a frame leaves the queue (R36, R37). -/
def attemptsPerFrame : Nat := 4

/-- Consecutive failures that enter MUTE (R38). -/
def failuresToMute : Nat := 16

/-- Consecutive good frames that leave MUTE (R45). -/
def goodFramesToLeaveMute : Nat := 32

/-- The write of DEVICE_RESET that resets the device (R189). -/
def resetCode : Word := 0x000000A5#32

/-- Periods of the 1 µs timebase in one millisecond (R42, R55). -/
def microsPerMilli : Nat := 1000

/-- FREE VALUE (log 5). Where one step holds several actions to which the spec gives no order, the n-th such choice
orders them by these ranks: the first argument is the choice's number, the second the action's. -/
opaque tieRank : Nat → Nat → Nat

end Sys2Proof.Config
end

