-- ==== Sys2Proof/Machine/State.lean ====
section
/-! DEFINITION. Everything the spec gives the LT-320 to hold, as plain data, and its values after device reset. -/

namespace Sys2Proof.Machine

/-- Reasons the machine stops. There is none: no command of this block stops the part (Chapter 10: "Refusals do not
stop the part"). Safe. -/
inductive Fault
deriving DecidableEq, Repr

/-- Reasons a command has no meaning here. -/
inductive Refusal
  /-- Raised by `exec` for a command that has no meaning yet. Safe: nothing can be proved of it. -/
  | notModelled (mnemonic : String)
deriving DecidableEq, Repr

/-! ## Settings: the configuration items, by their fields (R185 to R188) -/

/-- BIT_RATE (R23, R186). -/
inductive BitRate
  | kbit125 | kbit250 | kbit500 | kbit1000
deriving DecidableEq, Repr

/-- ENCODER_MODE (R2, R3, R186). -/
inductive EncoderMode
  | quad4 | quad1 | pulseDir
deriving DecidableEq, Repr

/-- PRESCALE: 1, 2, 4 or 8 counts per position step (R5, R186). -/
inductive Prescale
  | by1 | by2 | by4 | by8
deriving DecidableEq, Repr

/-- The change of input level that is a sensor edge (R66). -/
inductive Edge
  | rising | falling
deriving DecidableEq, Repr

/-- The settings of one sensor (R66, R187). -/
structure SensorSettings where
  enabled : Bool
  edge : Edge
  lane : BitVec 2
  cls : BitVec 4
  gap : BitVec 16
deriving DecidableEq, Repr

/-- The two form slots of a channel (R144). -/
inductive Slot
  | a | b
deriving DecidableEq, Repr

/-- The verdict condition of a template (R100). -/
inductive Condition
  | any | pass | reject | notReject | undecided
deriving DecidableEq, Repr

/-- The late policy of a template (R98, R112). -/
inductive LatePolicy
  | drop | fireLate
deriving DecidableEq, Repr

/-- An action template (R98, R187). -/
structure Template where
  enabled : Bool
  origins : BitVec 32
  lanes : BitVec 4
  classes : BitVec 16
  offset : BitVec 16
  channel : Fin 4
  slot : Slot
  condition : Condition
  policy : LatePolicy
  tolerance : BitVec 8
  group : Option (BitVec 3)
  lead : BitVec 12
  length : BitVec 16
  report : Bool
deriving DecidableEq, Repr

/-- A channel's polarity (R141). -/
inductive Polarity
  | activeHigh | activeLow
deriving DecidableEq, Repr

/-- The role of a channel's auxiliary input (R141). -/
inductive AuxRole
  | none | hold | inhibit
deriving DecidableEq, Repr

/-- The settings of one channel. The chain channel and slot are kept as written while no chain is present
(R141, R188). -/
structure ChannelSettings where
  polarity : Polarity
  role : AuxRole
  input : Fin 4
  chained : Bool
  chainChannel : Fin 4
  chainSlot : Slot
deriving DecidableEq, Repr

/-- Items 1..95 and the channel settings items. The form items are the staged forms of the channels (R145). -/
structure Settings where
  stationNumber : Station5
  bitRate : BitRate
  encoderMode : EncoderMode
  prescale : Prescale
  skewTolerance : BitVec 8
  joinWait : BitVec 16
  markInterval : BitVec 14
  trackHorizon : BitVec 22
  claimHorizon : BitVec 22
  attnThreshold : BitVec 6
  sensors : Vector SensorSettings 4
  templates : Vector Template 16
  channels : Vector ChannelSettings 4
deriving DecidableEq, Repr

/-! ## Pins, position unit, link controller, station control, sensor inputs -/

/-- Input pins whose present level is looked at apart from its changes (R4, R142). -/
structure Pins where
  enc : EncLevels
  aux : Vector Bool 4
deriving DecidableEq, Repr

/-- The direction of the most recent count (R6). -/
inductive Direction
  | forward | reverse
deriving DecidableEq, Repr

/-- The suspect record: the station and its skew (R19). -/
structure Suspect where
  station : Station5
  skew : Pos
deriving DecidableEq, Repr

/-- The position unit (section 1.1). -/
structure PositionUnit where
  count : Pos
  sub : Nat
  dir : Direction
  ref : EncLevels
  capture : Pos
  matchReg : Option Pos
  suspect : Option Suspect
deriving DecidableEq, Repr

/-- A down counter on the 1 µs timebase: stopped, or running with the microseconds left (R42, R55). -/
inductive Timer
  | stopped
  | running (left : Nat)
deriving DecidableEq, Repr

/-- Which block a queued frame came from (R39). -/
inductive TxOrigin
  | sensor | agenda | host | link
deriving DecidableEq, Repr

/-- One entry of the transmit queue (R39). -/
structure TxEntry where
  payload : Payload
  attempts : Nat
  origin : TxOrigin
  inFlight : Bool
deriving DecidableEq, Repr

/-- What this station drives, or last drove, on TrackLink since the line was last idle (R29 to R33, R45; log 11). -/
inductive LinkDrive
  /-- It leaves the line released. -/
  | released
  /-- It sends its own frame. -/
  | frame
  /-- It asserts the line for six bit times. -/
  | breaks
  /-- It asserts both bit times of the reject slot. -/
  | reject
deriving DecidableEq, Repr

/-- The link controller (R47). `idle` says that the idle-gap count has reached 11 released bit times, `receiving` that
a frame this station does not send is being decoded (R25, R30; log 10). `ownTaken` is the model's own: an own frame has
been taken, and no time has passed since then, so that an expiry of the mark timer falls together with that take (R48;
log 24). -/
structure LinkController where
  txq : List TxEntry
  fails : Nat
  mark : Timer
  goodRun : Nat
  idle : Bool
  receiving : Bool
  drive : LinkDrive
  ownTaken : Bool
deriving DecidableEq, Repr

/-- The six station states (R49). -/
inductive StationState
  | halted | joining | settling | active | drifted | mute
deriving DecidableEq, Repr

/-- The two states a DRIFTED or MUTE station may return to (R49). -/
inductive ResumeState
  | settling | active
deriving DecidableEq, Repr

/-- Station control (section 3.1). -/
structure StationControl where
  state : StationState
  resume : Option ResumeState
  join : Timer
  settleStart : Option Pos
deriving DecidableEq, Repr

/-- One sensor input: the reference level, which is the level as last read, and the last sighting position
(R67, R70). -/
structure SensorInput where
  level : Bool
  last : Option Pos
deriving DecidableEq, Repr

/-- The sensor block: four inputs and the station's sighting sequence counter (section 4.1). -/
structure SensorBlock where
  inputs : Vector SensorInput 4
  seq : Seq8
deriving DecidableEq, Repr

/-! ## Track table, agenda, claims table -/

/-- The judgement on an item (R78). -/
inductive Verdict
  | undecided | pass | reject
deriving DecidableEq, Repr

/-- An item record (R78). -/
structure Item where
  tag : Tag
  sighting : Pos
  lane : BitVec 2
  cls : BitVec 4
  verdict : Verdict
  source : Option Station5
deriving DecidableEq, Repr

/-- The state of an entry's window; the claim sequence is present in WANTED and HELD (R101). -/
inductive ClaimState
  | none
  | wanted (seq : Seq8)
  | held (seq : Seq8)
  | lost
deriving DecidableEq, Repr

/-- An agenda entry (R101). -/
structure Entry where
  fire : Pos
  template : Fin 16
  item : Tag
  claim : ClaimState
deriving DecidableEq, Repr

/-- A claim record (R119). -/
structure Claim where
  tag : Tag
  group : BitVec 3
  start : Pos
  length : BitVec 16
deriving DecidableEq, Repr

/-! ## Output channels -/

/-- The kind of a form (R144). -/
inductive FormKind
  | single | burst | held
deriving DecidableEq, Repr

/-- A form (R144). -/
structure Form where
  delay : BitVec 16
  kind : FormKind
  high : BitVec 16
  low : BitVec 16
  burst : BitVec 8
  cap : BitVec 16
deriving DecidableEq, Repr

/-- A form slot: the live and the staged copy and the commit-pending flag (R144). -/
structure FormSlot where
  live : Form
  staged : Form
  pending : Bool
deriving DecidableEq, Repr

/-- The source of a fire request (R148). -/
inductive Source
  | agenda | chain | force
deriving DecidableEq, Repr

/-- The sequence states but IDLE, which is the absence of a run record (R147). -/
inductive Phase
  | delay | high | low | hold
deriving DecidableEq, Repr

/-- The part of a form that a running sequence works from (R147). -/
structure WorkingForm where
  kind : FormKind
  high : BitVec 16
  low : BitVec 16
  burst : BitVec 8
  cap : BitVec 16
deriving DecidableEq, Repr

/-- The run record of a sequence, with its sequence state (R147). -/
structure Run where
  phase : Phase
  slot : Slot
  source : Source
  item : Option Tag
  form : WorkingForm
  pulses : Nat
  left : Nat
deriving DecidableEq, Repr

/-- A channel: two form slots and, unless it is IDLE, a run record (R144, R147). -/
structure Channel where
  slotA : FormSlot
  slotB : FormSlot
  run : Option Run
deriving DecidableEq, Repr

/-! ## Events and the service port -/

/-- The 29 event kinds (R165). -/
inductive EventKind
  | stateChange | aligned | skew | skewSender | realigned | frameFault | bitClash | sendFailed | dupStation | txqFull
  | sightLost | badSight | staleSight | dupTag | trackFull | verdictUnknown | badVerdict | agendaFull | lateDrop
  | lateFire | skippedDrift | noWindow | windowLost | orphanYield | fired | collision | inhibited | cut | holdCap
deriving DecidableEq, Repr

/-- What a block puts into a record: the kind and the optional fields (R164, R165). -/
structure EventFields where
  kind : EventKind
  item : Option Tag := none
  template : Option (Fin 16) := none
  channel : Option (Fin 4) := none
  station : Option Station5 := none
  claim : Option Tag := none
  value : Option Int := none
  reason : Option (BitVec 4) := none
deriving DecidableEq, Repr

/-- An event record: its fields, the position at creation and the lost-after flag (R164). -/
structure EventRecord where
  fields : EventFields
  pos : Pos
  lostAfter : Bool
deriving DecidableEq, Repr

/-- The last access result (R177). -/
inductive Access
  | ok | refusedState | refusedRange | refusedFixed | refusedVoid
deriving DecidableEq, Repr

/-- The result codes of RESULT (R181). -/
inductive ResultCode
  | done | refusedState | refusedFull | refusedArg | notFound | empty | refusedOffset | refusedWindow | refusedChain
  | inhibited | collision
deriving DecidableEq, Repr

/-- The RESULT register by its fields (R180). -/
structure CommandResult where
  command : BitVec 8
  code : ResultCode
  detail : BitVec 16
deriving DecidableEq, Repr

/-- The collections that TABLE_SEL selects from (R182). -/
inductive Collection
  | track | agenda | claims | txq | events
deriving DecidableEq, Repr

/-- The TABLE_SEL register by its fields (R182). -/
structure TableSel where
  collection : Collection
  index : BitVec 8
deriving DecidableEq, Repr

/-- RECORD0 to RECORD3 (R182). -/
structure Record4 where
  r0 : Word
  r1 : Word
  r2 : Word
  r3 : Word
deriving DecidableEq, Repr

/-- The service port. `miso` is the data word the port drove in bytes 2 to 5 of its last transaction
(R175, R178; log 9). -/
structure ServicePort where
  access : Access
  command : BitVec 8
  args : Record4
  result : CommandResult
  sel : TableSel
  record : Record4
  miso : Word
deriving DecidableEq, Repr

/-! ## The station and the machine's state -/

/-- One LT-320: everything but the queue of waiting commands. `ties` is the model's own: it numbers the choices
between events that fall together inside one step (log 5). -/
structure Station where
  pins : Pins
  pos : PositionUnit
  link : LinkController
  ctl : StationControl
  sense : SensorBlock
  track : List Item
  agenda : List Entry
  claims : List Claim
  claimSeq : Seq8
  channels : Vector Channel 4
  events : List EventRecord
  port : ServicePort
  settings : Settings
  ties : Nat
deriving DecidableEq, Repr

/-- The machine's state: the station, and the commands that wait, first in, first out. -/
structure State extends Station where
  pending : List Instr
deriving DecidableEq, Repr

/-! ## Device reset -/

/-- SENSOR_n_MODE 0, SENSOR_n_GAP 64 (R187). -/
def SensorSettings.reset : SensorSettings :=
  { enabled := false, edge := .rising, lane := 0, cls := 0, gap := 64 }

/-- Templates disabled, masks that choose everything, condition ANY, policy DROP, no window, length 1 (R187). -/
def Template.reset : Template :=
  { enabled := false, origins := 0xFFFFFFFF#32, lanes := 0xF#4, classes := 0xFFFF#16, offset := 0, channel := 0,
    slot := .a, condition := .any, policy := .drop, tolerance := 0, group := none, lead := 0, length := 1,
    report := false }

/-- CHANNEL_c_SETTINGS 0 (R141, R188). -/
def ChannelSettings.reset : ChannelSettings :=
  { polarity := .activeHigh, role := .none, input := 0, chained := false, chainChannel := 0, chainSlot := .a }

/-- Every configuration item at its default (R185 to R188). -/
def Settings.reset : Settings :=
  { stationNumber := 0, bitRate := .kbit500, encoderMode := .quad4, prescale := .by1, skewTolerance := 8,
    joinWait := 500, markInterval := 200, trackHorizon := 131072, claimHorizon := 65536, attnThreshold := 1,
    sensors := Vector.replicate 4 SensorSettings.reset, templates := Vector.replicate 16 Template.reset,
    channels := Vector.replicate 4 ChannelSettings.reset }

/-- The default form (R144). -/
def Form.reset : Form := { delay := 0, kind := .single, high := 100, low := 100, burst := 1, cap := 0 }

/-- A slot with both copies at the default and the flag clear (R144). -/
def FormSlot.reset : FormSlot := { live := Form.reset, staged := Form.reset, pending := false }

/-- An IDLE channel with default forms (R159). -/
def Channel.reset : Channel := { slotA := FormSlot.reset, slotB := FormSlot.reset, run := none }

/-- Four zero words. -/
def Record4.zero : Record4 := { r0 := 0, r1 := 0, r2 := 0, r3 := 0 }

/-- The service port after device reset (R177, R178; `miso` is log 9's choice). -/
def ServicePort.reset : ServicePort :=
  { access := .ok, command := 0, args := Record4.zero, result := { command := 0, code := .done, detail := 0 },
    sel := { collection := .track, index := 0 }, record := Record4.zero, miso := 0 }

/-- The station after a device reset that ends with the given levels at its inputs (R64). `ties`, the model's own, is
handed on. -/
def Station.resetAt (levels : InputLevels) (ties : Nat) : Station :=
  { pins := { enc := levels.enc, aux := levels.aux }
    pos := { count := 0, sub := 0, dir := .forward, ref := levels.enc, capture := 0, matchReg := none,
             suspect := none }
    link := { txq := [], fails := 0, mark := .stopped, goodRun := 0, idle := false, receiving := false,
              drive := .released, ownTaken := false }
    ctl := { state := .halted, resume := none, join := .stopped, settleStart := none }
    sense := { inputs := levels.sensors.map (fun l => { level := l, last := none }), seq := 0 }
    track := []
    agenda := []
    claims := []
    claimSeq := 0
    channels := Vector.replicate 4 Channel.reset
    events := []
    port := ServicePort.reset
    settings := Settings.reset
    ties := ties }

/-- Every input low (log 6). -/
def InputLevels.allLow : InputLevels :=
  { enc := { a := false, b := false }, sensors := Vector.replicate 4 false, aux := Vector.replicate 4 false }

/-- The machine right after a device reset with every input low and no command waiting (R64; log 6). -/
def State.reset : State := { Station.resetAt InputLevels.allLow 0 with pending := [] }

end Sys2Proof.Machine
end

