-- ==== Sys2Proof/Machine/Flags.lean ====
section
/-! DEFINITION. Codes, status and flags as the controller and the records see them: event and reason codes, result
codes, ATTN and the output levels. -/

namespace Sys2Proof

/-- The kind of a payload (R27). -/
def Payload.kind : Payload → FrameKind
  | .sight _ _ _ _ => .sight
  | .verdict _ _ => .verdict
  | .yield _ => .yield
  | .claim _ _ _ _ => .claim
  | .retire _ => .retire
  | .mark => .mark

/-- The kind codes of the frames (R27). -/
def FrameKind.code : FrameKind → BitVec 3
  | .sight => 0
  | .verdict => 1
  | .yield => 2
  | .claim => 3
  | .retire => 4
  | .mark => 7

end Sys2Proof

namespace Sys2Proof.Machine

/-- The number of a station state in STATUS and in STATE_CHANGE values (R167, R179). -/
def StationState.number : StationState → Nat
  | .halted => 0
  | .joining => 1
  | .settling => 2
  | .active => 3
  | .drifted => 4
  | .mute => 5

/-- The station state a resume state names (R49). -/
def ResumeState.toState : ResumeState → StationState
  | .settling => .settling
  | .active => .active

/-- The resume state that a state left leaves behind: SETTLING and ACTIVE alone can be left for DRIFTED or MUTE
(R49). -/
def StationState.toResume : StationState → Option ResumeState
  | .settling => some .settling
  | .active => some .active
  | .halted => none
  | .joining => none
  | .drifted => none
  | .mute => none

/-- The causes of a STATE_CHANGE (R65). -/
inductive Cause
  | start | joinFrame | joinTimeout | settled | skew | resolved | sendFailures | goodRun | resume | stop
deriving DecidableEq, Repr

/-- The code of a cause (R167). -/
def Cause.code : Cause → BitVec 4
  | .start => 1
  | .joinFrame => 2
  | .joinTimeout => 3
  | .settled => 4
  | .skew => 5
  | .resolved => 6
  | .sendFailures => 7
  | .goodRun => 8
  | .resume => 9
  | .stop => 10

/-- The reasons of a WINDOW_LOST (R166). -/
inductive LossReason
  | state | precheck | sendFailed | flushed | late | far | dup | clash | full
deriving DecidableEq, Repr

/-- The code of a loss reason (R166). -/
def LossReason.code : LossReason → BitVec 4
  | .state => 1
  | .precheck => 2
  | .sendFailed => 3
  | .flushed => 4
  | .late => 5
  | .far => 6
  | .dup => 7
  | .clash => 8
  | .full => 9

/-- The reasons for which a receiver finds a frame faulty (R32). -/
inductive FaultReason
  | kind | short | check
deriving DecidableEq, Repr

/-- The code of a frame fault (R166). -/
def FaultReason.code : FaultReason → BitVec 4
  | .kind => 1
  | .short => 2
  | .check => 3

/-- The code of a fire request's source (R166). -/
def Source.code : Source → BitVec 4
  | .agenda => 1
  | .chain => 2
  | .force => 3

/-- The code of the sequence state at a cut (R166). -/
def Phase.code : Phase → BitVec 4
  | .delay => 1
  | .high => 2
  | .low => 3
  | .hold => 4

/-- SIGHT_LOST reason EDGE (R166). -/
def reasonEdge : BitVec 4 := 1

/-- SIGHT_LOST reason FLUSHED (R166). -/
def reasonFlushed : BitVec 4 := 2

/-- The NO_WINDOW reason for a claim state that is not HELD: 1 WANTED, 2 LOST (R166). A windowed entry in NONE, which no
run reaches, gives 2 by the model's choice (log 17), and HELD is not asked. -/
def ClaimState.noWindowCode : ClaimState → BitVec 4
  | .wanted _ => 1
  | .lost => 2
  | .none => 2
  | .held _ => 2

/-- The 29 kind codes (R165). -/
def EventKind.code : EventKind → BitVec 5
  | .stateChange => 1
  | .aligned => 2
  | .skew => 3
  | .skewSender => 4
  | .realigned => 5
  | .frameFault => 6
  | .bitClash => 7
  | .sendFailed => 8
  | .dupStation => 9
  | .txqFull => 10
  | .sightLost => 11
  | .badSight => 12
  | .staleSight => 13
  | .dupTag => 14
  | .trackFull => 15
  | .verdictUnknown => 16
  | .badVerdict => 17
  | .agendaFull => 18
  | .lateDrop => 19
  | .lateFire => 20
  | .skippedDrift => 21
  | .noWindow => 22
  | .windowLost => 23
  | .orphanYield => 24
  | .fired => 25
  | .collision => 26
  | .inhibited => 27
  | .cut => 28
  | .holdCap => 29

/-- The codes of the last access result (R177). -/
def Access.code : Access → BitVec 3
  | .ok => 0
  | .refusedState => 1
  | .refusedRange => 2
  | .refusedFixed => 3
  | .refusedVoid => 4

/-- The result codes of RESULT (R181). -/
def ResultCode.code : ResultCode → BitVec 8
  | .done => 0
  | .refusedState => 1
  | .refusedFull => 2
  | .refusedArg => 3
  | .notFound => 4
  | .empty => 5
  | .refusedOffset => 6
  | .refusedWindow => 7
  | .refusedChain => 8
  | .inhibited => 9
  | .collision => 10

/-- ATTN: asserted while the event count is at or above the threshold (R170). -/
def Station.attn (s : Station) : Bool := decide (s.settings.attnThreshold.toNat ≤ s.events.length)

/-- The receiver is off in HALTED and on in every other state (R23). -/
def Station.receiverOn (s : Station) : Bool := s.ctl.state != .halted

/-- SETTLING and ACTIVE: the states in which frames are started and the mark timer runs (R42, R46). -/
def StationState.inService (st : StationState) : Bool := st == .settling || st == .active

/-- The head of the transmit queue is on the line (R39). -/
def Station.headInFlight (s : Station) : Bool :=
  match s.link.txq with
  | [] => false
  | e :: _ => e.inFlight

/-- A channel's output is active in HIGH and HOLD (R143). -/
def Channel.active (c : Channel) : Bool :=
  match c.run with
  | none => false
  | some r => r.phase == .high || r.phase == .hold

/-- The level of OUTc: the output's state through the polarity; `true` is high (R143). -/
def Station.outputPin (s : Station) (c : Fin 4) : Bool :=
  match (s.settings.channels.get c).polarity with
  | .activeHigh => (s.channels.get c).active
  | .activeLow => !(s.channels.get c).active

/-- The hold condition of a channel (R142). -/
def Station.holds (s : Station) (c : Fin 4) : Bool :=
  (s.settings.channels.get c).role == .hold && s.pins.aux.get (s.settings.channels.get c).input

/-- The inhibit condition of a channel (R142). -/
def Station.inhibits (s : Station) (c : Fin 4) : Bool :=
  (s.settings.channels.get c).role == .inhibit && s.pins.aux.get (s.settings.channels.get c).input

/-- The settle span: the claim horizon plus twice the skew tolerance (section 3.5). -/
def Station.settleSpan (s : Station) : Nat := s.settings.claimHorizon.toNat + 2 * s.settings.skewTolerance.toNat

/-- Counts per position step (R186). -/
def Prescale.counts : Prescale → Nat
  | .by1 => 1
  | .by2 => 2
  | .by4 => 4
  | .by8 => 8

end Sys2Proof.Machine
end

