-- ==== Sys2Proof/Machine/Ops.lean ====
section
/-! DEFINITION. The operations that several blocks share: relations on positions, event records, the transmit queue's
back end, state changes, timers, channels by number, and choices between events that fall together. -/

namespace Sys2Proof.Machine

/-! ## Positions (Conventions) -/

/-- d(a, b), the distance from b to a: (a - b) mod 2^24. -/
def dist (a b : Pos) : Nat := (a - b).toNat

/-- a is ahead of b: d(a, b) is in 1..8,388,607. -/
def ahead (a b : Pos) : Bool := decide (1 ≤ dist a b) && decide (dist a b ≤ 8388607)

/-- The signed 24-bit value of (a - b) mod 2^24 (R18, R107, R120). -/
def signedDist (a b : Pos) : Int := (a - b).toInt

/-- A skew, given modulo 2^24, is within tolerance when its magnitude is not above it (R18). -/
def withinTolerance (skew : Pos) (tolerance : BitVec 8) : Bool := decide (skew.toInt.natAbs ≤ tolerance.toNat)

/-! ## Event records (R164, R168, R169) -/

/-- The newest record, at the back, gets its lost-after flag set (R169). -/
def markNewest : List EventRecord → List EventRecord
  | [] => []
  | [e] => [{ e with lostAfter := true }]
  | e :: f :: es => e :: markNewest (f :: es)

/-- A record joins the back, or is lost and leaves its mark on the newest record (R168, R169). -/
def pushEvent (e : EventRecord) (q : List EventRecord) : List EventRecord :=
  if q.length < Config.eventCapacity then q ++ [e] else markNewest q

/-- A record is made, with the position as it stands (R164). -/
def Station.addRecord (f : EventFields) (s : Station) : Station :=
  { s with events := pushEvent { fields := f, pos := s.pos.count, lostAfter := false } s.events }

/-! ## The transmit queue (R39, R40) -/

/-- The queue holds 16 entries (R40). -/
def Station.txFull (s : Station) : Bool := decide (Config.txqCapacity ≤ s.link.txq.length)

/-- An entry joins the back with attempt count 0 and the in-flight flag clear (R39). -/
def Station.pushTx (p : Payload) (o : TxOrigin) (s : Station) : Station :=
  { s with link.txq := s.link.txq ++ [{ payload := p, attempts := 0, origin := o, inFlight := false }] }

/-- The item a frame of station `own` names (R37). -/
def itemNamed (own : Station5) : Payload → Option Tag
  | .sight seq _ _ _ => some { origin := own, seq := seq }
  | .verdict item _ => some item
  | .retire item => some item
  | .yield _ => none
  | .claim _ _ _ _ => none
  | .mark => none

/-- The claim a frame of station `own` names (R37). -/
def claimNamed (own : Station5) : Payload → Option Tag
  | .yield seq => some { origin := own, seq := seq }
  | .claim seq _ _ _ => some { origin := own, seq := seq }
  | .sight _ _ _ _ => none
  | .verdict _ _ => none
  | .retire _ => none
  | .mark => none

/-- The fields of the frame-naming kinds BIT_CLASH, SEND_FAILED and TXQ_FULL (R165, R166). -/
def frameFields (kind : EventKind) (own : Station5) (p : Payload) : EventFields :=
  { kind := kind, item := itemNamed own p, claim := claimNamed own p, reason := some (p.kind.code.setWidth 4) }

/-- Enqueue, or refuse with TXQ_FULL (R39, R40). A CLAIM of the agenda is refused under R108 instead. -/
def Station.enqueue (p : Payload) (o : TxOrigin) (s : Station) : Station :=
  if s.txFull then s.addRecord (frameFields .txqFull s.settings.stationNumber p) else s.pushTx p o

/-! ## Timers (R42, R55) -/

/-- The mark timer starts from the full interval, or stays stopped where the interval is 0 (R42). -/
def Station.startMark (s : Station) : Station :=
  { s with link.mark := if s.settings.markInterval = 0 then .stopped
                        else .running (s.settings.markInterval.toNat * Config.microsPerMilli) }

/-- The mark timer stops (R42). -/
def Station.stopMark (s : Station) : Station := { s with link.mark := .stopped }

/-! ## Station state (R65, R167) -/

/-- The station enters a state and STATE_CHANGE is recorded with the state left, the state entered and the cause. -/
def Station.changeState (entered : StationState) (cause : Cause) (s : Station) : Station :=
  { s with ctl.state := entered }.addRecord
    { kind := .stateChange, value := some ((8 * s.ctl.state.number + entered.number : Nat) : Int), reason := some cause.code }

/-- The return from DRIFTED or MUTE to the resume state (R60, R62): the resume state becomes absent, STATE_CHANGE is
recorded and the mark timer starts from the full interval. Without a resume state there is no return (log 17). -/
def Station.returnToResume (cause : Cause) (s : Station) : Station :=
  match s.ctl.resume with
  | none => s
  | some r => ({ s with ctl.resume := none }.changeState r.toState cause).startMark

/-! ## Channels by number -/

/-- Channel OUTc. -/
def Station.chan (s : Station) (c : Fin 4) : Channel := s.channels.get c

/-- Channel OUTc is replaced. -/
def Station.setChan (c : Fin 4) (ch : Channel) (s : Station) : Station :=
  { s with channels := s.channels.set c.val ch c.isLt }

/-- The run record of OUTc is replaced. -/
def Station.setRun (c : Fin 4) (r : Option Run) (s : Station) : Station := s.setChan c { s.chan c with run := r }

/-- A slot of a channel. -/
def Channel.slot (ch : Channel) : Slot → FormSlot
  | .a => ch.slotA
  | .b => ch.slotB

/-- A slot of a channel is replaced. -/
def Channel.setSlot (ch : Channel) (sl : Slot) (f : FormSlot) : Channel :=
  match sl with
  | .a => { ch with slotA := f }
  | .b => { ch with slotB := f }

/-! ## Events that fall together inside one step (log 5) -/

/-- `x` is placed before the first element of a rank that is not lower. -/
def insertRanked {α : Type} (rank : α → Nat) (x : α) : List α → List α
  | [] => [x]
  | y :: ys => if rank x ≤ rank y then x :: y :: ys else y :: insertRanked rank x ys

/-- The elements in the order of their ranks. -/
def orderRanked {α : Type} (rank : α → Nat) : List α → List α
  | [] => []
  | x :: xs => insertRanked rank x (orderRanked rank xs)

/-- The order of actions to which the spec gives none: a free value (R168: "either may be handled first"). A single
action needs no choice. -/
def Station.chosenOrder {α : Type} (key : α → Nat) (xs : List α) (s : Station) : List α :=
  if xs.length ≤ 1 then xs else orderRanked (fun x => Config.tieRank s.ties (key x)) xs

/-- The choice of an order is counted, so that the next one is free again. -/
def Station.noteChoice {α : Type} (xs : List α) (s : Station) : Station :=
  if xs.length ≤ 1 then s else { s with ties := s.ties + 1 }

/-- Actions to which the spec gives no order are made one after another in the chosen order. -/
def Station.inTieOrder {α : Type} (key : α → Nat) (act : α → Station → Station) (xs : List α) (s : Station) :
    Station :=
  (s.chosenOrder key xs).foldl (fun t x => act x t) (s.noteChoice xs)

/-! ## From the station to the machine -/

/-- A command that completes: it acts on the station and leaves the queue alone. -/
def State.advance (f : Station → Station) (s : State) : Host.Outcome State Fault Refusal :=
  .next { s with toStation := f s.toStation }

end Sys2Proof.Machine
end

