-- ==== Sys2Proof/Machine/Channels.lean ====
section
/-! DEFINITION. Output channels: fire requests, loads, the phases of a sequence, its end and chain, hold and inhibit
(Chapter 8). -/

namespace Sys2Proof.Machine

/-! ## Loads (R149) -/

/-- The slot as a load leaves it: a pending commit is taken up (R149, step 1). -/
def FormSlot.takeCommit (f : FormSlot) : FormSlot :=
  if f.pending then { live := f.staged, staged := f.staged, pending := false } else f

/-- The working form of a live form (R149, step 2). -/
def Form.working (f : Form) : WorkingForm :=
  { kind := f.kind, high := f.high, low := f.low, burst := f.burst, cap := f.cap }

/-- The HIGH phases still to come after the first one (R149, step 2). -/
def Form.pulsesAfterFirst (f : Form) : Nat :=
  match f.kind with
  | .burst => f.burst.toNat - 1
  | .single => 0
  | .held => 0

/-- The run record a load makes from a live form (R149, steps 2 and 3). -/
def Form.startRun (f : Form) (slot : Slot) (source : Source) (item : Option Tag) : Run :=
  { phase := if f.delay = 0 then .high else .delay
    slot := slot, source := source, item := item, form := f.working, pulses := f.pulsesAfterFirst
    left := if f.delay = 0 then f.high.toNat else f.delay.toNat }

/-- The channel after a load of a slot (R149). -/
def Channel.load (ch : Channel) (slot : Slot) (source : Source) (item : Option Tag) : Channel :=
  { ch.setSlot slot (ch.slot slot).takeCommit with
    run := some ((ch.slot slot).takeCommit.live.startRun slot source item) }

/-! ## Fire requests (R148) -/

/-- What becomes of a fire request (R148, R158). -/
inductive FireOutcome
  | inhibited | collision | loaded
deriving DecidableEq, Repr

/-- The outcome of a fire request to a channel (R148). -/
def Station.fireOutcome (s : Station) (c : Fin 4) : FireOutcome :=
  if s.inhibits c then .inhibited else if (s.chan c).run.isSome then .collision else .loaded

/-- A channel handles a fire request (R148). -/
def Station.fireRequest (c : Fin 4) (slot : Slot) (source : Source) (item : Option Tag) (s : Station) : Station :=
  match s.fireOutcome c with
  | .inhibited => s.addRecord { kind := .inhibited, item := item, channel := some c, reason := some source.code }
  | .collision => s.addRecord { kind := .collision, item := item, channel := some c, reason := some source.code }
  | .loaded => s.setChan c ((s.chan c).load slot source item)

/-! ## End of a sequence (R155, R156) -/

/-- The chain of a channel whose sequence with item `item` has ended is followed outside HALTED (R156). -/
def Station.followChain (c : Fin 4) (item : Option Tag) (s : Station) : Station :=
  if s.ctl.state = .halted then s
  else if (s.settings.channels.get c).chained then
    s.fireRequest (s.settings.channels.get c).chainChannel (s.settings.channels.get c).chainSlot .chain item
  else s

/-- The sequence with run record `r` ends: the channel is IDLE, then its chain is followed (R155). -/
def Station.endSequence (c : Fin 4) (r : Run) (s : Station) : Station := (s.setRun c none).followChain c r.item

/-- The running sequence is cut by the inhibit condition (R157). -/
def Station.cutSequence (c : Fin 4) (s : Station) : Station :=
  match (s.chan c).run with
  | none => s
  | some r =>
    (s.setRun c none).addRecord { kind := .cut, item := r.item, channel := some c, reason := some r.phase.code }

/-- HOLD ends because the hold condition has ceased to hold (R154). -/
def Station.releaseHold (c : Fin 4) (s : Station) : Station :=
  match (s.chan c).run with
  | none => s
  | some r => if r.phase = .hold then s.endSequence c r else s

/-! ## Expiries (R150 to R154) -/

/-- The run enters HIGH for the working high width (R150, R152). -/
def Run.enterHigh (r : Run) : Run := { r with phase := .high, left := r.form.high.toNat }

/-- The delay of a sequence expires (R150). -/
def Station.delayExpires (c : Fin 4) (s : Station) : Station :=
  match (s.chan c).run with
  | none => s
  | some r => if r.phase = .delay then s.setRun c (some r.enterHigh) else s

/-- A LOW phase expires (R152). -/
def Station.lowExpires (c : Fin 4) (s : Station) : Station :=
  match (s.chan c).run with
  | none => s
  | some r => if r.phase = .low then s.setRun c (some r.enterHigh) else s

/-- The end of a HIGH phase by the kind of the working form (R151 to R153). -/
def Station.endOfHigh (c : Fin 4) (r : Run) (s : Station) : Station :=
  match r.form.kind with
  | .single => s.endSequence c r
  | .burst =>
    if r.pulses = 0 then s.endSequence c r
    else s.setRun c (some { r with phase := .low, pulses := r.pulses - 1, left := r.form.low.toNat })
  | .held =>
    if s.holds c ∧ r.form.cap ≠ 0 then s.setRun c (some { r with phase := .hold, left := r.form.cap.toNat })
    else s.endSequence c r

/-- A HIGH phase expires (R151 to R153). -/
def Station.highExpires (c : Fin 4) (s : Station) : Station :=
  match (s.chan c).run with
  | none => s
  | some r => if r.phase = .high then s.endOfHigh c r else s

/-- The hold cap expires: HOLD_CAP is recorded while the hold condition still holds, and the sequence ends (R154). Where the
condition has ceased, which no run reaches, the model records nothing (log 17). -/
def Station.holdCapExpires (c : Fin 4) (s : Station) : Station :=
  match (s.chan c).run with
  | none => s
  | some r =>
    if r.phase = .hold then
      if s.holds c then
        (s.addRecord { kind := .holdCap, item := r.item, channel := some c,
                       value := some (r.form.cap.toNat : Int) }).endSequence c r
      else s.endSequence c r
    else s

/-! ## Auxiliary inputs (R142) -/

/-- A running sequence of OUTc was in a phase at which a change of its hold or inhibit condition acts, and the
condition has so changed between `before` and `s` (R142, R154, R157). -/
def Station.auxActsOn (before s : Station) (c : Fin 4) : Bool :=
  match (s.chan c).run with
  | none => false
  | some r => (!before.inhibits c && s.inhibits c) || (r.phase == .hold && before.holds c && !s.holds c)

/-- The release of OUTc's inhibit condition falls together with a chained request to it, from a HOLD that the same
change ends (R161). In HALTED no chain is followed (R156). -/
def Station.releasedForChain (before s : Station) (c : Fin 4) : Bool :=
  s.ctl.state != .halted && before.inhibits c && !s.inhibits c &&
    (List.finRange 4).any (fun d => Station.auxActsOn before s d && !s.inhibits d &&
      (s.settings.channels.get d).chained && (s.settings.channels.get d).chainChannel == c)

/-- The channels that have a part in a change of conditions. -/
def Station.auxConcerns (before s : Station) : List (Fin 4) :=
  (List.finRange 4).filter (fun c => Station.auxActsOn before s c || Station.releasedForChain before s c)

/-- HOLD of OUTc ends, and its chain is followed while the channels of `waiting` still have the input levels of
`before` (R154, R161). -/
def Station.releaseHoldAmong (before : Station) (waiting : List (Fin 4)) (c : Fin 4) (s : Station) : Station :=
  if (s.settings.channels.get c).chainChannel ∈ waiting then
    { { s with pins.aux := before.pins.aux }.releaseHold c with pins.aux := s.pins.aux }
  else s.releaseHold c

/-- The change of a channel's conditions acts: the inhibit condition that starts to hold cuts the sequence, the hold
condition that ceases ends HOLD (R154, R157). The channels of `waiting` have not seen the change yet. Where one settings
write does both to a channel in HOLD, the model's choice is the cut (R160; log 23). -/
def Station.applyAux (before : Station) (waiting : List (Fin 4)) (c : Fin 4) (s : Station) : Station :=
  if !Station.auxActsOn before s c then s
  else if s.inhibits c then s.cutSequence c
  else Station.releaseHoldAmong before waiting c s

/-- The channels handle a change of conditions one after another. -/
def Station.applyConditions (before : Station) : List (Fin 4) → Station → Station
  | [], s => s
  | c :: cs, s => Station.applyConditions before cs (Station.applyAux before cs c s)

/-- The conditions have changed from those of `before` to those of `s`. The channels that have a part in the change
handle it in an order the spec leaves open (R161, R168; log 5). -/
def Station.conditionsChanged (before s : Station) : Station :=
  Station.applyConditions before (s.chosenOrder (fun c : Fin 4 => c.val) (Station.auxConcerns before s))
    (s.noteChoice (Station.auxConcerns before s))

/-- An auxiliary input is read at a level (R142). -/
def Station.auxRead (n : Fin 4) (level : Bool) (s : Station) : Station :=
  Station.conditionsChanged s { s with pins.aux := s.pins.aux.set n.val level n.isLt }

/-! ## Meanings -/

/-- AUX_INPUT_CHANGE (R142). -/
def execAuxInputChange (input : Fin 4) (level : Bool) (s : State) : Host.Outcome State Fault Refusal :=
  s.advance (Station.auxRead input level)

/-- DELAY_EXPIRY (R150). -/
def execDelayExpiry (channel : Fin 4) (s : State) : Host.Outcome State Fault Refusal :=
  s.advance (Station.delayExpires channel)

/-- HIGH_WIDTH_EXPIRY (R151, R152, R153). -/
def execHighWidthExpiry (channel : Fin 4) (s : State) : Host.Outcome State Fault Refusal :=
  s.advance (Station.highExpires channel)

/-- LOW_WIDTH_EXPIRY (R152). -/
def execLowWidthExpiry (channel : Fin 4) (s : State) : Host.Outcome State Fault Refusal :=
  s.advance (Station.lowExpires channel)

/-- HOLD_CAP_EXPIRY (R154). -/
def execHoldCapExpiry (channel : Fin 4) (s : State) : Host.Outcome State Fault Refusal :=
  s.advance (Station.holdCapExpires channel)

end Sys2Proof.Machine
end

