-- ==== Sys2Proof/Machine/Agenda.lean ====
section
/-! DEFINITION. Action templates and the agenda: matching, the claim release, judging at a match and in late handling,
claim making and insertion (Chapter 6). -/

namespace Sys2Proof.Machine

/-- A template of the station (R98). -/
def Station.template (s : Station) (t : Fin 16) : Template := s.settings.templates.get t

/-- A template matches an item: enabled, and all three masks choose the item (R99). -/
def Template.matchesItem (t : Template) (i : Item) : Bool :=
  t.enabled && t.origins.getLsbD i.tag.origin.toNat && t.lanes.getLsbD i.lane.toNat && t.classes.getLsbD i.cls.toNat

/-- A windowed template has a light group (R98). -/
def Template.windowed (t : Template) : Bool := t.group.isSome

/-- A verdict satisfies a verdict condition (R100). -/
def Condition.satisfied : Condition → Verdict → Bool
  | .any, _ => true
  | .pass, v => v == .pass
  | .reject, v => v == .reject
  | .notReject, v => v == .undecided || v == .pass
  | .undecided, v => v == .undecided

/-- The item with a tag in the track table. -/
def Station.findItem (s : Station) (tag : Tag) : Option Item := s.track.find? (fun i => i.tag == tag)

/-- The verdict of an item as the agenda reads it (R87). Every entry's item is in the table (R102). Were one not, it
would read as UNDECIDED (log 17). -/
def Station.verdictOf (s : Station) (tag : Tag) : Verdict :=
  match s.findItem tag with
  | some i => i.verdict
  | none => .undecided

/-- The claim start of a window: the fire position less the lead (R107). -/
def Template.claimStart (t : Template) (fire : Pos) : Pos := fire - t.lead.setWidth 24

/-! ## The match register (R12, R102) -/

/-- The agenda loads the match register with its head's fire position, or empties it (R12). -/
def Station.loadMatch (s : Station) : Station := { s with pos.matchReg := s.agenda.head?.map Entry.fire }

/-! ## Order (R102) -/

/-- A new entry `e` stands before an entry `f` already in the agenda of a station at `p`: nearer, or at the same fire
position with a lower template number. Otherwise it stands behind it, as the later of two equals does (R102). -/
def Entry.standsBefore (p : Pos) (e f : Entry) : Bool :=
  decide (dist e.fire p < dist f.fire p) || (e.fire == f.fire && decide (e.template < f.template))

/-- A new entry takes its place in the order (R102). -/
def insertEntry (p : Pos) (e : Entry) : List Entry → List Entry
  | [] => [e]
  | f :: fs => if e.standsBefore p f then e :: f :: fs else f :: insertEntry p e fs

/-! ## Leaving the agenda (R110, R113, R115, R116) -/

/-- A queue entry is the CLAIM with a claim sequence and is not in flight. -/
def TxEntry.isWaitingClaim (seq : Seq8) (e : TxEntry) : Bool :=
  match e.payload with
  | .claim q _ _ _ => q == seq && !e.inFlight
  | .sight _ _ _ _ => false
  | .verdict _ _ => false
  | .yield _ => false
  | .retire _ => false
  | .mark => false

/-- The CLAIM with a claim sequence leaves the queue, from wherever it stands, unless it is in flight (R41; where two
qualify, the first in queue order, log 18). -/
def Station.withdrawClaim (seq : Seq8) (s : Station) : Station :=
  { s with link.txq := s.link.txq.eraseP (TxEntry.isWaitingClaim seq) }

/-- The claim release for an entry that leaves the agenda (R115). -/
def Station.releaseClaim (e : Entry) (s : Station) : Station :=
  match e.claim with
  | .held seq =>
    if ahead ((s.template e.template).claimStart e.fire) s.pos.count then s.enqueue (.yield seq) .agenda else s
  | .wanted seq => s.withdrawClaim seq
  | .lost => s
  | .none => s

/-- An entry leaves the agenda, its claim is released, and it is then handled (R110, R113, R116). -/
def Station.leaveAgenda (handle : Entry → Station → Station) (s : Station) (e : Entry) : Station :=
  handle e (({ s with agenda := s.agenda.erase e }).releaseClaim e)

/-- Entries leave the agenda one after another, each handled whole, and the match register is then loaded. -/
def Station.leaveAll (handle : Entry → Station → Station) (es : List Entry) (s : Station) : Station :=
  (es.foldl (Station.leaveAgenda handle) s).loadMatch

/-- The cancellation of every entry of a removed item (R116). -/
def Station.cancelItem (tag : Tag) (s : Station) : Station :=
  s.leaveAll (fun _ t => t) (s.agenda.filter (fun e => e.item == tag))

/-! ## Judging (R111, R112) -/

/-- The fire request of an agenda action (R114). -/
def Station.agendaFire (t : Fin 16) (item : Tag) (s : Station) : Station :=
  s.fireRequest (s.template t).channel (s.template t).slot .agenda (some item)

/-- An entry that leaves at a match is HELD. -/
def ClaimState.isHeld : ClaimState → Bool
  | .held _ => true
  | .none => false
  | .wanted _ => false
  | .lost => false

/-- FIRED is recorded where the template's report field is on (R111, case 4). -/
def Station.reportFired (t : Fin 16) (item : Tag) (s : Station) : Station :=
  if (s.template t).report then
    s.addRecord { kind := .fired, item := some item, template := some t, channel := some (s.template t).channel }
  else s

/-- An entry taken at a match is judged (R111). -/
def Station.judgeMatched (e : Entry) (s : Station) : Station :=
  if s.ctl.state = .drifted then
    s.addRecord { kind := .skippedDrift, item := some e.item, template := some e.template }
  else if !(s.template e.template).condition.satisfied (s.verdictOf e.item) then s
  else if (s.template e.template).windowed && !e.claim.isHeld then
    s.addRecord { kind := .noWindow, item := some e.item, template := some e.template,
                  reason := some e.claim.noWindowCode }
  else (s.reportFired e.template e.item).agendaFire e.template e.item

/-- A late action is dropped: windowed, or policy DROP, or too late (R112, case 1). -/
def Template.dropsLate (t : Template) (lateness : Nat) : Bool :=
  t.windowed || t.policy == .drop || decide (t.tolerance.toNat < lateness)

/-- A late action of template `t` for an item, with its lateness, is handled (R112). -/
def Station.handleLate (t : Fin 16) (item : Tag) (lateness : Nat) (s : Station) : Station :=
  if (s.template t).dropsLate lateness then
    s.addRecord { kind := .lateDrop, item := some item, template := some t, value := some (lateness : Int) }
  else if s.ctl.state = .drifted then
    s.addRecord { kind := .skippedDrift, item := some item, template := some t }
  else if !(s.template t).condition.satisfied (s.verdictOf item) then s
  else
    (s.addRecord { kind := .lateFire, item := some item, template := some t, channel := some (s.template t).channel,
                   value := some (lateness : Int) }).agendaFire t item

/-- The entries at the matched position are taken, in agenda order (R110). -/
def Station.takeMatch (s : Station) : Station :=
  s.leaveAll Station.judgeMatched (s.agenda.filter (fun e => e.fire == s.pos.count))

/-- Every entry that is no longer ahead of the position is handled as late, in agenda order (R8, R14, R113). -/
def Station.lateSweep (s : Station) : Station :=
  s.leaveAll (fun e t => t.handleLate e.template e.item (dist t.pos.count e.fire))
    (s.agenda.filter (fun e => !ahead e.fire s.pos.count))

/-! ## Claim making (R106 to R108) -/

/-- A window placed against a reference position: its start and its end as plain numbers (R107, R121). -/
def windowStart (start ref : Pos) : Int := signedDist start ref

/-- Two windows of one group overlap when both have a length of at least 1 and each begins before the other ends
(R121). -/
def windowsOverlap (ref : Pos) (start₁ : Pos) (length₁ : BitVec 16) (start₂ : Pos) (length₂ : BitVec 16) : Bool :=
  length₁ != 0 && length₂ != 0 &&
    decide (windowStart start₁ ref < windowStart start₂ ref + length₂.toNat) &&
    decide (windowStart start₂ ref < windowStart start₁ ref + length₁.toNat)

/-- The end of a window: (start + length) mod 2^24 (R119). -/
def windowEnd (start : Pos) (length : BitVec 16) : Pos := start + length.setWidth 24

/-- A window known to the station is in the way of a new one: same group, end ahead of the position, overlapping
(R107). -/
def Station.inTheWay (s : Station) (group : BitVec 3) (start : Pos) (length : BitVec 16)
    (group' : BitVec 3) (start' : Pos) (length' : BitVec 16) : Bool :=
  group' == group && ahead (windowEnd start' length') s.pos.count &&
    windowsOverlap s.pos.count start length start' length'

/-- A queued frame is a CLAIM whose window is in the way (R107). -/
def Station.queuedInTheWay (s : Station) (group : BitVec 3) (start : Pos) (length : BitVec 16) (e : TxEntry) : Bool :=
  match e.payload with
  | .claim _ group' start' length' => s.inTheWay group start length group' start' length'
  | .sight _ _ _ _ => false
  | .verdict _ _ => false
  | .yield _ => false
  | .retire _ => false
  | .mark => false

/-- The pre-check finds a window in the way, in the claims table or among the queued CLAIM frames (R107). -/
def Station.precheckFails (s : Station) (group : BitVec 3) (start : Pos) (length : BitVec 16) : Bool :=
  s.claims.any (fun c => s.inTheWay group start length c.group c.start c.length) ||
    s.link.txq.any (s.queuedInTheWay group start length)

/-- WINDOW_LOST (R106, R107, R109, R132). -/
def windowLost (item : Tag) (t : Fin 16) (claim : Option Tag) (reason : LossReason) : EventFields :=
  { kind := .windowLost, item := some item, template := some t, claim := claim, reason := some reason.code }

/-- What claim making leaves: the entry's claim state and the station. -/
structure ClaimMade where
  claim : ClaimState
  station : Station

/-- A CLAIM is made for a windowed entry that passed the pre-check (R108). -/
def Station.sendClaim (t : Fin 16) (item : Tag) (group : BitVec 3) (start : Pos) (length : BitVec 16) (s : Station) :
    ClaimMade :=
  if s.txFull then
    { claim := .lost
      station := s.addRecord { kind := .txqFull, item := some item, template := some t,
                               reason := some (FrameKind.claim.code.setWidth 4) } }
  else
    { claim := .wanted s.claimSeq
      station := { s with claimSeq := s.claimSeq + 1 }.pushTx (.claim s.claimSeq group start length) .agenda }

/-- Claim making for a new windowed entry (R106 to R108). -/
def Station.makeClaim (t : Fin 16) (item : Tag) (group : BitVec 3) (start : Pos) (length : BitVec 16) (s : Station) :
    ClaimMade :=
  if s.ctl.state ≠ .active then { claim := .lost, station := s.addRecord (windowLost item t none .state) }
  else if s.precheckFails group start length then
    { claim := .lost, station := s.addRecord (windowLost item t none .precheck) }
  else s.sendClaim t item group start length

/-- The claim state of a new entry: NONE for an unwindowed template, else by claim making (R104). -/
def Station.claimFor (t : Fin 16) (item : Tag) (fire : Pos) (s : Station) : ClaimMade :=
  match (s.template t).group with
  | none => { claim := .none, station := s }
  | some g => s.makeClaim t item g ((s.template t).claimStart fire) (s.template t).length

/-! ## Insertion (R104, R105) -/

/-- The fire position of a template for an item (R104). -/
def Template.firePosition (t : Template) (i : Item) : Pos := i.sighting + t.offset.setWidth 24

/-- A new entry is inserted at its place, with the claim state that claim making gave it (R104, case 3). -/
def Station.addEntry (t : Fin 16) (i : Item) (fire : Pos) (s : Station) : Station :=
  { (s.claimFor t i.tag fire).station with
    agenda := insertEntry s.pos.count
      { fire := fire, template := t, item := i.tag, claim := (s.claimFor t i.tag fire).claim }
      (s.claimFor t i.tag fire).station.agenda }

/-- One matching template is handled for a new item (R104, R105). -/
def Station.insertFor (i : Item) (s : Station) (t : Fin 16) : Station :=
  if !(s.template t).matchesItem i then s
  else if !ahead ((s.template t).firePosition i) s.pos.count then
    s.handleLate t i.tag (dist s.pos.count ((s.template t).firePosition i))
  else if Config.agendaCapacity ≤ s.agenda.length then
    s.addRecord { kind := .agendaFull, item := some i.tag, template := some t }
  else s.addEntry t i ((s.template t).firePosition i)

/-- The agenda is handed a new item: T0 to T15 in turn, then the match register is loaded (R104). -/
def Station.insertItem (i : Item) (s : Station) : Station :=
  ((List.finRange 16).foldl (Station.insertFor i) s).loadMatch

/-! ## The loss of a CLAIM (R109) and the owner side's finding (R132) -/

/-- A WANTED entry with a claim sequence. -/
def Entry.wants (seq : Seq8) (e : Entry) : Bool := e.claim == .wanted seq

/-- The first WANTED entry with a claim sequence, in agenda order, changes its claim state (R109, R132). -/
def settleFirst (seq : Seq8) (c : ClaimState) : List Entry → List Entry
  | [] => []
  | e :: es => if e.wants seq then { e with claim := c } :: es else e :: settleFirst seq c es

/-- The WANTED entry of a claim sequence goes LOST with WINDOW_LOST; none waiting, nothing follows (R109, R132). -/
def Station.loseClaim (seq : Seq8) (reason : LossReason) (s : Station) : Station :=
  match s.agenda.find? (Entry.wants seq) with
  | none => s
  | some e =>
    { s with agenda := settleFirst seq .lost s.agenda }.addRecord
      (windowLost e.item e.template (some { origin := s.settings.stationNumber, seq := seq }) reason)

end Sys2Proof.Machine
end

