-- ==== Sys2Proof/Machine/Claims.lean ====
section
/-! DEFINITION. The claims table: the purge, the takes of CLAIM and YIELD, and the owner side (Chapter 7). -/

namespace Sys2Proof.Machine

/-- The end of a claim (R119). -/
def Claim.finish (c : Claim) : Pos := windowEnd c.start c.length

/-- The purge: every claim whose end is not ahead of the stamp is removed (R125). -/
def Station.purge (t : Pos) (s : Station) : Station :=
  { s with claims := s.claims.filter (fun c => ahead c.finish t) }

/-- The claim with a tag. -/
def Station.findClaim (s : Station) (tag : Tag) : Option Claim := s.claims.find? (fun c => c.tag == tag)

/-- A claim is in the way of a new one at a take with stamp `t`: same group and overlapping windows (R127, check 4). -/
def Claim.clashes (t : Pos) (new old : Claim) : Bool :=
  old.group == new.group && windowsOverlap t new.start new.length old.start old.length

/-- The checks of a CLAIM take, in order; the first that fails is the refusal (R127). -/
def Station.claimRefusal (s : Station) (t : Pos) (c : Claim) : Option LossReason :=
  if !ahead c.start t then some .late
  else if s.settings.claimHorizon.toNat < dist c.finish t then some .far
  else if (s.findClaim c.tag).isSome then some .dup
  else if s.claims.any (Claim.clashes t c) then some .clash
  else if Config.claimsCapacity ≤ s.claims.length then some .full
  else none

/-- A new claim is placed immediately before the first claim of a greater key, or at the end (R120). -/
def placeClaim (t : Pos) (c : Claim) : List Claim → List Claim
  | [] => [c]
  | d :: ds => if windowStart c.start t < windowStart d.start t then c :: d :: ds else d :: placeClaim t c ds

/-- The claim enters the table (R128). -/
def Station.enterClaim (t : Pos) (c : Claim) (s : Station) : Station := { s with claims := placeClaim t c s.claims }

/-! ## The owner side (R132, R133) -/

/-- The owner side of an own CLAIM that was entered (R132), or its orphan's yield (R133). -/
def Station.ownEntered (seq : Seq8) (s : Station) : Station :=
  match s.agenda.find? (Entry.wants seq) with
  | some _ => { s with agenda := settleFirst seq (.held seq) s.agenda }
  | none =>
    (s.addRecord { kind := .orphanYield, claim := some { origin := s.settings.stationNumber, seq := seq } }).enqueue
      (.yield seq) .link

/-- The take of a CLAIM after the purge; `own` says that this station sent the frame (R127, R128, R132, R133). -/
def Station.takeClaim (own : Bool) (t : Pos) (c : Claim) (s : Station) : Station :=
  match s.claimRefusal t c with
  | none => if own then (s.enterClaim t c).ownEntered c.tag.seq else s.enterClaim t c
  | some r => if own then s.loseClaim c.tag.seq r else s

/-- The take of a YIELD after the purge: the sender's named claim is removed if present (R130). -/
def Station.takeYield (tag : Tag) (s : Station) : Station :=
  { s with claims := s.claims.eraseP (fun c => c.tag == tag) }

end Sys2Proof.Machine
end

