-- ==== Sys2Proof/Machine/Codec.lean ====
section
/-! DEFINITION. Frames as bits and line levels: field layout, check sequence, bit stuffing, and the receiver's judgement
of the levels it reads (R24, R26, R27, R28, R32). A bit of value 0 is an asserted level, written `false`; a bit of value
1 is a released level, written `true` (R23). -/

namespace Sys2Proof.Machine

/-- The bits of a field, most significant bit first (R26). -/
def fieldBits {w : Nat} (x : BitVec w) : List Bool := (List.range w).map (fun i => x.getMsbD i)

/-- The number that bits spell, most significant bit first (R26). -/
def bitsToNat (bits : List Bool) : Nat := bits.foldl (fun n b => 2 * n + b.toNat) 0

/-- The field of width `w` at bit position `at` of a frame, counted from the start bit as bit 0 (R27). -/
def fieldAt (w start : Nat) (bits : List Bool) : BitVec w := BitVec.ofNat w (bitsToNat ((bits.drop start).take w))

/-- The payload fields in sending order (R27). -/
def payloadBits : Payload → List Bool
  | .sight seq pos lane cls => fieldBits seq ++ fieldBits pos ++ fieldBits lane ++ fieldBits cls
  | .verdict item v => fieldBits item.origin ++ fieldBits item.seq ++ fieldBits v
  | .yield seq => fieldBits seq
  | .claim seq group start length => fieldBits seq ++ fieldBits group ++ fieldBits start ++ fieldBits length
  | .retire item => fieldBits item.origin ++ fieldBits item.seq
  | .mark => []

/-- Kind, sender, stamp and payload: the fields the check is computed over (R26, R28). -/
def bodyBits (f : Frame) : List Bool :=
  fieldBits f.payload.kind.code ++ fieldBits f.sender ++ fieldBits f.stamp ++ payloadBits f.payload

/-- One bit through the check register: generator x^16 + x^12 + x^5 + 1 (R28). -/
def crcStep (reg : BitVec 16) (bit : Bool) : BitVec 16 :=
  if (reg.msb ^^ bit) then (reg <<< 1) ^^^ 0x1021#16 else reg <<< 1

/-- The check sequence of the body bits, from FFFFh and without a final inversion (R28). -/
def crc (body : List Bool) : BitVec 16 := body.foldl crcStep 0xFFFF#16

/-- The frame from its start bit through its check field, without stuff bits (R26). -/
def frameBits (f : Frame) : List Bool := false :: bodyBits f ++ fieldBits (crc (bodyBits f))

/-- The stuffed part from here on, after `run` equal levels `last` (R24). -/
def stuffFrom (last : Bool) (run : Nat) : List Bool → List Bool
  | [] => if run = 5 then [!last] else []
  | b :: bs =>
    if run = 5 then (!last) :: b :: stuffFrom b (if b = !last then 2 else 1) bs
    else b :: stuffFrom b (if b = last then run + 1 else 1) bs

/-- The levels a station sends for a frame, from the start bit to the last stuff bit before the reject slot
(R24, R26). -/
def frameLevels (f : Frame) : List Bool := stuffFrom true 0 (frameBits f)

/-- The bits from the start bit through the check field that a kind code demands; unassigned codes give no length
(R27). -/
def demandedBits (kind : BitVec 3) : Option Nat :=
  if kind = 0 then some 87
  else if kind = 1 then some 64
  else if kind = 2 then some 57
  else if kind = 3 then some 100
  else if kind = 4 then some 62
  else if kind = 7 then some 49
  else none

/-- The payload of a frame whose bits have all arrived (R27). -/
def decodePayload (kind : BitVec 3) (bits : List Bool) : Payload :=
  if kind = 0 then .sight (fieldAt 8 33 bits) (fieldAt 24 41 bits) (fieldAt 2 65 bits) (fieldAt 4 67 bits)
  else if kind = 1 then .verdict { origin := fieldAt 5 33 bits, seq := fieldAt 8 38 bits } (fieldAt 2 46 bits)
  else if kind = 2 then .yield (fieldAt 8 33 bits)
  else if kind = 3 then .claim (fieldAt 8 33 bits) (fieldAt 3 41 bits) (fieldAt 24 44 bits) (fieldAt 16 68 bits)
  else if kind = 4 then .retire { origin := fieldAt 5 33 bits, seq := fieldAt 8 38 bits }
  else .mark

/-- What a receiver makes of the levels it has read since the start bit (R32). -/
inductive Reception
  /-- All bits have arrived and the check agrees. -/
  | good (frame : Frame)
  /-- A fault, with the sender where all five sender bits were received. -/
  | fault (reason : FaultReason) (sender : Option Station5)
  /-- Neither: the frame goes on. -/
  | unfinished
deriving DecidableEq, Repr

/-- The sender as decoded, where all five sender bits (4 to 8) have been received (R32). -/
def senderOf (bits : List Bool) : Option Station5 := if 9 ≤ bits.length then some (fieldAt 5 4 bits) else none

/-- The kind and sender bits have arrived and the kind code is 5 or 6 (R32, KIND; log 14). -/
def kindFault (bits : List Bool) : Bool := bits.length == 9 && (fieldAt 3 1 bits == 5#3 || fieldAt 3 1 bits == 6#3)

/-- All the bits the kind demands have arrived (R32). -/
def allArrived (bits : List Bool) : Bool := decide (4 ≤ bits.length) && demandedBits (fieldAt 3 1 bits) == some bits.length

/-- The check received against the check computed (R28, R32). -/
def judgeCheck (bits : List Bool) : Reception :=
  if crc ((bits.drop 1).take (bits.length - 17)) = fieldAt 16 (bits.length - 16) bits then
    .good { sender := fieldAt 5 4 bits, stamp := fieldAt 24 9 bits, payload := decodePayload (fieldAt 3 1 bits) bits }
  else .fault .check (senderOf bits)

/-- The receiver reads on: `bits` are the frame bits so far, without stuff bits, and the last `run` levels were `last`.
A level after five equal levels is a stuff bit, or makes a run of six (R24, R32). -/
def receiveFrom (bits : List Bool) (last : Bool) (run : Nat) : List Bool → Reception
  | [] => if allArrived bits && run != 5 then judgeCheck bits else .unfinished
  | l :: ls =>
    if allArrived bits && run != 5 then judgeCheck bits
    else if run = 5 then
      if l = last then .fault .short (senderOf bits) else receiveFrom bits l 1 ls
    else if kindFault (bits ++ [l]) then .fault .kind (senderOf (bits ++ [l]))
    else receiveFrom (bits ++ [l]) l (if l = last then run + 1 else 1) ls

/-- The receiver's judgement of the levels read from the start bit on (R32). -/
def receive (levels : List Bool) : Reception := receiveFrom [] true 0 levels

/-- The frame this station has on the line: its in-flight head, with its own number and the capture of the frame's own
start bit as stamp (R11, R26). -/
def Station.ownFrame (s : Station) : Option Frame :=
  match s.link.txq with
  | [] => none
  | e :: _ =>
    if e.inFlight then
      some { sender := s.settings.stationNumber, stamp := s.pos.capture, payload := e.payload }
    else none

end Sys2Proof.Machine
end

