-- ==== Sys2Proof/Machine/Track.lean ====
section
/-! DEFINITION. The track table: removal, horizon removal, and the takes of SIGHT, VERDICT and RETIRE (Chapter 5). -/

namespace Sys2Proof.Machine

/-! ## Removal (R91) -/

/-- The record with a tag leaves the table, and the agenda cancels that item's entries (R91). -/
def Station.removeItem (tag : Tag) (s : Station) : Station :=
  ({ s with track := s.track.eraseP (fun i => i.tag == tag) }).cancelItem tag

/-- An item lies more than the track horizon behind the position (R89). -/
def Station.beyondHorizon (s : Station) (i : Item) : Bool :=
  !ahead i.sighting s.pos.count && decide (s.settings.trackHorizon.toNat < dist s.pos.count i.sighting)

/-- The oldest item is beyond the horizon. -/
def Station.oldestBeyond (s : Station) : Bool :=
  match s.track with
  | [] => false
  | i :: _ => s.beyondHorizon i

/-- The oldest items beyond the horizon are removed one after another, at most `n` of them (R89). -/
def Station.removeOldest : Nat → Station → Station
  | 0, s => s
  | n + 1, s =>
    match s.track with
    | [] => s
    | i :: _ => if s.beyondHorizon i then Station.removeOldest n (s.removeItem i.tag) else s

/-- Horizon removal at a forward step (R89). -/
def Station.horizonRemoval (s : Station) : Station := s.removeOldest s.track.length

/-! ## SIGHT (R79, R81, R82) -/

/-- The new item, with its sighting, is nearer to the stamp `t` than the item `j` is not: `j` has a smaller
behind-distance than a sighting `s` at or behind `t`, or is ahead of `t` (R79). -/
def nearerThan (t s : Pos) (j : Item) : Bool := ahead j.sighting t || decide (dist t j.sighting < dist t s)

/-- The new item is placed immediately before the first item with a smaller behind-distance, or at the end (R79). -/
def placeItem (t : Pos) (i : Item) : List Item → List Item
  | [] => [i]
  | j :: js => if nearerThan t i.sighting j then i :: j :: js else j :: placeItem t i js

/-- The checks of a SIGHT take, in order; the first that fails gives the record (R81). -/
def Station.sightRefusal (s : Station) (t : Pos) (i : Item) : Option EventFields :=
  if ahead i.sighting t then
    some { kind := .badSight, item := some i.tag, station := some i.tag.origin,
           value := some (dist i.sighting t : Int) }
  else if s.settings.trackHorizon.toNat < dist t i.sighting then
    some { kind := .staleSight, item := some i.tag, station := some i.tag.origin,
           value := some (dist t i.sighting : Int) }
  else if (s.findItem i.tag).isSome then
    some { kind := .dupTag, item := some i.tag, station := some i.tag.origin }
  else if Config.trackCapacity ≤ s.track.length then
    some { kind := .trackFull, item := some i.tag, station := some i.tag.origin }
  else none

/-- An item that passes the checks is entered and handed to the agenda (R82). -/
def Station.enterItem (t : Pos) (i : Item) (s : Station) : Station :=
  ({ s with track := placeItem t i s.track }).insertItem i

/-- The item a SIGHT would make (R82). -/
def sightItem (sender : Station5) (seq : Seq8) (pos : Pos) (lane : BitVec 2) (cls : BitVec 4) : Item :=
  { tag := { origin := sender, seq := seq }, sighting := pos, lane := lane, cls := cls, verdict := .undecided,
    source := none }

/-- The take of a SIGHT with stamp `t` (R81, R82). -/
def Station.takeSight (t : Pos) (i : Item) (s : Station) : Station :=
  match s.sightRefusal t i with
  | some f => s.addRecord f
  | none => s.enterItem t i

/-! ## VERDICT (R85, R86) -/

/-- A PASS or REJECT verdict from a sender is merged into an item (R86). -/
def Item.merge (i : Item) (v : Verdict) (sender : Station5) : Item :=
  match i.verdict, v with
  | .undecided, .pass => { i with verdict := .pass, source := some sender }
  | .undecided, .reject => { i with verdict := .reject, source := some sender }
  | .pass, .reject => { i with verdict := .reject, source := some sender }
  | .pass, .pass => i
  | .reject, _ => i
  | .undecided, .undecided => i
  | .pass, .undecided => i

/-- The verdict that a verdict field carries: 1 PASS, 2 REJECT (R27). -/
def verdictField (v : BitVec 2) : Option Verdict :=
  if v = 1 then some .pass else if v = 2 then some .reject else none

/-- A verdict is merged into the item with a tag (R85, case 3). -/
def Station.mergeVerdict (tag : Tag) (v : Verdict) (sender : Station5) (s : Station) : Station :=
  { s with track := s.track.map (fun i => if i.tag = tag then i.merge v sender else i) }

/-- The take of a VERDICT (R85). -/
def Station.takeVerdict (sender : Station5) (tag : Tag) (v : BitVec 2) (s : Station) : Station :=
  match verdictField v with
  | none => s.addRecord { kind := .badVerdict, item := some tag, station := some sender, reason := some (v.setWidth 4) }
  | some w =>
    if (s.findItem tag).isSome then s.mergeVerdict tag w sender
    else s.addRecord { kind := .verdictUnknown, item := some tag, station := some sender, reason := some (v.setWidth 4) }

/-! ## RETIRE (R88) -/

/-- The take of a RETIRE (R88). -/
def Station.takeRetire (tag : Tag) (s : Station) : Station :=
  if (s.findItem tag).isSome then s.removeItem tag else s

end Sys2Proof.Machine
end

