-- ==== Sys2Proof/Machine/Position.lean ====
section
/-! DEFINITION. The position unit: encoder decoding, counts and steps with their receivers, alignment, the join, the
skew check and drift resolution (Chapter 1, with the settle span of Chapter 3). -/

namespace Sys2Proof.Machine

/-! ## From levels to counts (R2, R3) -/

/-- The pair that follows in the forward sequence (0,0), (1,0), (1,1), (0,1) (R2). -/
def forwardOf (l : EncLevels) : EncLevels := { a := !l.b, b := l.a }

/-- The pair that follows in the reverse sequence (R2). -/
def reverseOf (l : EncLevels) : EncLevels := { a := l.b, b := !l.a }

/-- QUAD4: the count that a new pair of levels makes against the reference (R2). -/
def quad4Count (ref new : EncLevels) : Option Direction :=
  if new = forwardOf ref then some .forward else if new = reverseOf ref then some .reverse else none

/-- QUAD1: one count at each rising edge of ENC_A, forward with ENC_B low (R3). -/
def quad1Count (ref new : EncLevels) : Option Direction :=
  if !ref.a && new.a then (if new.b then some .reverse else some .forward) else none

/-- PULSE_DIR: one count at each rising edge of ENC_A, forward with ENC_B high (R3). -/
def pulseDirCount (old new : EncLevels) : Option Direction :=
  if !old.a && new.a then (if new.b then some .forward else some .reverse) else none

/-- The count a change of the encoder lines makes in the station's encoder mode. PULSE_DIR looks at the pin's level
before the change: the decoder reference belongs to QUAD4 and QUAD1 (section 1.1; log 12). -/
def Station.countOf (s : Station) (new : EncLevels) : Option Direction :=
  match s.settings.encoderMode with
  | .quad4 => quad4Count s.pos.ref new
  | .quad1 => quad1Count s.pos.ref new
  | .pulseDir => pulseDirCount s.pins.enc new

/-- The levels are present on the pins and, in QUAD4 and QUAD1, become the reference (R2, R4). -/
def Station.acceptLevels (new : EncLevels) (s : Station) : Station :=
  { s with
    pins.enc := new
    pos.ref := match s.settings.encoderMode with
      | .quad4 => new
      | .quad1 => new
      | .pulseDir => s.pos.ref }

/-! ## The settle span (R57, R58) -/

/-- The forward step completes the settle span: it is still being measured and the distance equals it (R57). -/
def Station.spanComplete (s : Station) : Bool :=
  match s.ctl.settleStart with
  | none => false
  | some p => dist s.pos.count p == s.settleSpan

/-- Station control at a forward step (R57, R58). -/
def Station.settleStep (s : Station) : Station :=
  if !s.spanComplete then s
  else if s.ctl.state = .settling then { s with ctl.settleStart := none }.changeState .active .settled
  else if s.ctl.resume = some .settling then
    { s with ctl.settleStart := none, ctl.resume := some .active }
  else s

/-! ## Steps (R7, R8, R12) -/

/-- The match register holds the position (R12). -/
def Station.atMatch (s : Station) : Bool := s.pos.matchReg == some s.pos.count

/-- The agenda at a forward step: a match is taken (R12, R110). -/
def Station.matchStep (s : Station) : Station := if s.atMatch then s.takeMatch else s

/-- The three receivers of a forward step (R7). -/
inductive StepReceiver
  | track | agenda | control
deriving DecidableEq, Repr

/-- A receiver's number among the three. -/
def StepReceiver.number : StepReceiver → Nat
  | .track => 0
  | .agenda => 1
  | .control => 2

/-- A receiver has something to do at this step. -/
def Station.concerns (s : Station) : StepReceiver → Bool
  | .track => s.oldestBeyond
  | .agenda => s.atMatch
  | .control => s.spanComplete

/-- A receiver handles the step (R7). -/
def StepReceiver.handle : StepReceiver → Station → Station
  | .track => Station.horizonRemoval
  | .agenda => Station.matchStep
  | .control => Station.settleStep

/-- A forward step: the position goes up by one and is delivered to the receivers, in an order the spec leaves open
(R1, R7, R168). -/
def Station.forwardStep (s : Station) : Station :=
  let t : Station := { s with pos.count := s.pos.count + 1 }
  t.inTieOrder StepReceiver.number StepReceiver.handle
    ([StepReceiver.track, .agenda, .control].filter t.concerns)

/-- A reverse step: the position goes down by one, and entries no longer ahead are handled as late (R1, R8). -/
def Station.reverseStep (s : Station) : Station := { s with pos.count := s.pos.count - 1 }.lateSweep

/-- One count: direction, sub-count and, at the prescale, a step (R5, R6). -/
def Station.count (d : Direction) (s : Station) : Station :=
  match d with
  | .forward =>
    if s.pos.sub + 1 = s.settings.prescale.counts then
      { s with pos.dir := .forward, pos.sub := 0 }.forwardStep
    else { s with pos.dir := .forward, pos.sub := s.pos.sub + 1 }
  | .reverse =>
    if s.pos.sub = 0 then
      { s with pos.dir := .reverse, pos.sub := s.settings.prescale.counts - 1 }.reverseStep
    else { s with pos.dir := .reverse, pos.sub := s.pos.sub - 1 }

/-- A change of the encoder lines (R2 to R6). -/
def Station.encoderChange (new : EncLevels) (s : Station) : Station :=
  match s.countOf new with
  | none => s.acceptLevels new
  | some d => (s.acceptLevels new).count d

/-- ENCODER_COUNT (R2 to R8). -/
def execEncoderCount (levels : EncLevels) (s : State) : Host.Outcome State Fault Refusal :=
  s.advance (Station.encoderChange levels)

/-! ## Alignment (R13, R14) -/

/-- A queued SIGHT that is not in flight moves with the count (R13). -/
def TxEntry.align (k : Pos) (e : TxEntry) : TxEntry :=
  match e.payload with
  | .sight seq pos lane cls => if e.inFlight then e else { e with payload := .sight seq (pos + k) lane cls }
  | .verdict _ _ => e
  | .yield _ => e
  | .claim _ _ _ _ => e
  | .retire _ => e
  | .mark => e

/-- Everything that an alignment by `k` moves, without the notice to the agenda (R13). -/
def Station.moveCount (k : Pos) (s : Station) : Station :=
  { s with
    pos.count := s.pos.count + k
    pos.sub := 0
    link.txq := s.link.txq.map (TxEntry.align k)
    sense.inputs := s.sense.inputs.map (fun i => { i with last := i.last.map (· + k) })
    ctl.settleStart := s.ctl.settleStart.map (· + k) }

/-- An alignment by `k`, with the agenda's late handling at its notice (R13, R14). -/
def Station.align (k : Pos) (s : Station) : Station := (s.moveCount k).lateSweep

/-! ## Joining, skew and drift (R17 to R22, R59, R60) -/

/-- The station enters SETTLING from JOINING: the settle start is the position, the join timer stops, STATE_CHANGE is
recorded and the mark timer starts (R17, R42, R55, R56). -/
def Station.enterSettling (cause : Cause) (s : Station) : Station :=
  ({ s with ctl.settleStart := some s.pos.count, ctl.join := .stopped }.changeState .settling cause).startMark

/-- The first take in JOINING aligns the station and enters SETTLING (R17). -/
def Station.joinAt (sender : Station5) (k : Pos) (s : Station) : Station :=
  ((s.align k).addRecord { kind := .aligned, station := some sender, value := some k.toInt }).enterSettling .joinFrame

/-- The join timer expires in JOINING (R17, R55). -/
def Station.joinExpires (s : Station) : Station :=
  if s.ctl.state = .joining then s.enterSettling .joinTimeout else s

/-- JOIN_TIMEOUT (R55). -/
def execJoinTimeout (s : State) : Host.Outcome State Fault Refusal := s.advance Station.joinExpires

/-- SKEW with the sender and the skew (R19, R20). -/
def skewFields (sender : Station5) (skew : Pos) : EventFields :=
  { kind := .skew, station := some sender, value := some skew.toInt }

/-- A failed skew check: the suspect record is set, SKEW is recorded and the station enters DRIFTED (R19, R59). -/
def Station.enterDrifted (sender : Station5) (skew : Pos) (s : Station) : Station :=
  (({ s with pos.suspect := some { station := sender, skew := skew }, ctl.resume := s.ctl.state.toResume }.addRecord
      (skewFields sender skew)).changeState .drifted .skew).stopMark

/-- The skew check in SETTLING and ACTIVE (R19). -/
def Station.checkSkew (sender : Station5) (skew : Pos) (s : Station) : Station :=
  if withinTolerance skew s.settings.skewTolerance then s else s.enterDrifted sender skew

/-- A resolved drift: the suspect record becomes absent and the station returns to its resume state (R20, R21, R60). -/
def Station.resolveDrift (s : Station) : Station :=
  { s with pos.suspect := none }.returnToResume .resolved

/-- A take in DRIFTED from the suspect station (R21). -/
def Station.suspectSpeaks (sender : Station5) (skew : Pos) (s : Station) : Station :=
  if withinTolerance skew s.settings.skewTolerance then s.resolveDrift
  else { s with pos.suspect := some { station := sender, skew := skew } }

/-- A take in DRIFTED from a station other than the suspect `u` (R20). -/
def Station.thirdOpinion (u : Suspect) (sender : Station5) (skew : Pos) (s : Station) : Station :=
  if withinTolerance skew s.settings.skewTolerance then
    (s.addRecord { kind := .skewSender, station := some u.station }).resolveDrift
  else if withinTolerance (skew - u.skew) s.settings.skewTolerance then
    ((s.align skew).addRecord { kind := .realigned, station := some sender, value := some skew.toInt }).resolveDrift
  else
    { s with pos.suspect := some { station := sender, skew := skew } }.addRecord (skewFields sender skew)

/-- Drift resolution (R20, R21). A DRIFTED station has a suspect (R22; log 17). -/
def Station.resolveSkew (sender : Station5) (skew : Pos) (s : Station) : Station :=
  match s.pos.suspect with
  | none => s
  | some u => if sender = u.station then s.suspectSpeaks sender skew else s.thirdOpinion u sender skew

/-- The position step of a take from another sender, by station state (R34 step 2, R18). The skew is the stamp less
the capture, modulo 2^24. -/
def Station.judgePosition (sender : Station5) (skew : Pos) (s : Station) : Station :=
  match s.ctl.state with
  | .joining => s.joinAt sender skew
  | .settling => s.checkSkew sender skew
  | .active => s.checkSkew sender skew
  | .drifted => s.resolveSkew sender skew
  | .mute => s
  | .halted => s

end Sys2Proof.Machine
end

