-- ==== Sys2Proof/Machine/Link.lean ====
section
/-! DEFINITION. The link controller: start bits and the idle gap, sending, lost arbitration and bit clashes, failed
attempts and MUTE, faulty and rejected frames, the mark timer, and the take (Chapter 2; R61, R62). -/

namespace Sys2Proof.Machine

/-! ## Start bits and the idle gap (R10, R25, R29) -/

/-- The first asserted level after the idle gap, seen at the receiver: the position is captured and the frame is
decoded (R10, R25). An asserted level before the idle gap is no start bit. -/
def Station.seeStartBit (s : Station) : Station :=
  if s.receiverOn && s.link.idle then
    { s with pos.capture := s.pos.count, link.idle := false, link.receiving := true, link.drive := .released }
  else s

/-- START_BIT (R10, R25). -/
def execStartBit (s : State) : Host.Outcome State Fault Refusal := s.advance Station.seeStartBit

/-- The line has been released for 11 bit times: the next asserted level is a start bit (R25). The gap does not fall
inside a frame that is being decoded or sent, and a receiver that is off counts nothing. The 11 bit times have passed
since an own take before it (R48; log 24). -/
def Station.seeIdleGap (s : Station) : Station :=
  if s.receiverOn && !s.link.receiving && !s.headInFlight then
    { s with link.idle := true, link.drive := .released, link.ownTaken := false }
  else s

/-- IDLE_GAP (R25). -/
def execIdleGap (s : State) : Host.Outcome State Fault Refusal := s.advance Station.seeIdleGap

/-- The head's in-flight flag is set to `b` (R29, R30). -/
def setHeadFlight (b : Bool) : List TxEntry → List TxEntry
  | [] => []
  | e :: es => { e with inFlight := b } :: es

/-- The station starts the head frame: its start bit is captured and the head is in flight (R29). -/
def Station.startFrame (s : Station) : Station :=
  if s.ctl.state.inService && s.link.idle && !s.link.txq.isEmpty then
    { s with
      pos.capture := s.pos.count
      link.txq := setHeadFlight true s.link.txq
      link.idle := false
      link.receiving := false
      link.drive := .frame }
  else s

/-- FRAME_START (R29). -/
def execFrameStart (s : State) : Host.Outcome State Fault Refusal := s.advance Station.startFrame

/-- The sender has lost arbitration: the head is no longer in flight and keeps its attempt count, and the winner's
frame is received (R30). -/
def Station.loseArbitration (s : Station) : Station :=
  if s.headInFlight then
    { s with link.txq := setHeadFlight false s.link.txq, link.receiving := true, link.drive := .released }
  else s

/-- LOST_ARBITRATION (R30). -/
def execLostArbitration (s : State) : Host.Outcome State Fault Refusal := s.advance Station.loseArbitration

/-! ## Failed attempts and MUTE (R36 to R38, R41, R61) -/

/-- A removed entry is handed back to its origin block (R37, R41, R74, R109): the reason is SEND_FAILED for a 4th
failed attempt and FLUSHED for the flush at MUTE entry. -/
def Station.handBack (flushed : Bool) (s : Station) (e : TxEntry) : Station :=
  match e.payload with
  | .claim seq _ _ _ => s.loseClaim seq (if flushed then .flushed else .sendFailed)
  | .sight seq _ _ _ =>
    if flushed then
      s.addRecord { kind := .sightLost, item := some { origin := s.settings.stationNumber, seq := seq },
                    reason := some reasonFlushed }
    else s
  | .verdict _ _ => s
  | .yield _ => s
  | .retire _ => s
  | .mark => s

/-- The transmit queue is flushed: every entry is removed and handed back, in queue order (R41). -/
def Station.flushQueue (s : Station) : Station :=
  s.link.txq.foldl (Station.handBack true) { s with link.txq := [] }

/-- Entry to MUTE (R61). It comes at the end of an attempt, so nothing is driven any more, and what the station last
drove stays as it is: the break, where the attempt ended in a bit clash (R31, R36; log 11). -/
def Station.enterMute (s : Station) : Station :=
  ({ s with
      ctl.resume := s.ctl.state.toResume
      link.mark := .stopped
      link.goodRun := 0 }.changeState .mute .sendFailures).flushQueue

/-- One more consecutive failure; the 16th takes a station in SETTLING or ACTIVE to MUTE (R38). In another state, in
which no run has a frame in flight, the model's choice is that the count alone becomes 0 (log 17). -/
def Station.countFailure (s : Station) : Station :=
  if s.link.fails + 1 < Config.failuresToMute then { s with link.fails := s.link.fails + 1 }
  else if s.ctl.state.inService then { s with link.fails := 0 }.enterMute
  else { s with link.fails := 0 }

/-- The head fails its 4th attempt: it leaves the queue, SEND_FAILED is recorded and it is handed back (R37). -/
def Station.dropHead (e : TxEntry) (s : Station) : Station :=
  ({ s with link.txq := s.link.txq.tail }.addRecord
    (frameFields .sendFailed s.settings.stationNumber e.payload)).handBack false e

/-- The head `e`, in flight, has a failed attempt (R36 to R38). -/
def Station.failHead (e : TxEntry) (s : Station) : Station :=
  (if e.attempts + 1 < Config.attemptsPerFrame then
    { s with link.txq := { e with attempts := e.attempts + 1, inFlight := false } :: s.link.txq.tail }
  else s.dropHead e).countFailure

/-- The sender reads its reject slot asserted (R33, R36). -/
def Station.attemptFails (s : Station) : Station :=
  match s.link.txq with
  | [] => s
  | e :: _ => if e.inFlight then { s with link.drive := .released }.failHead e else s

/-- FAILED_ATTEMPT (R36, R37, R38, R61). -/
def execFailedAttempt (s : State) : Host.Outcome State Fault Refusal := s.advance Station.attemptFails

/-- The sender has found a bit clash: it sends a break, records BIT_CLASH and has a failed attempt (R31). -/
def Station.findBitClash (s : Station) : Station :=
  match s.link.txq with
  | [] => s
  | e :: _ =>
    if e.inFlight then
      ({ s with link.drive := .breaks }.addRecord
        (frameFields .bitClash s.settings.stationNumber e.payload)).failHead e
    else s

/-- BIT_CLASH (R31, R36, R37, R38, R61). -/
def execBitClash (s : State) : Host.Outcome State Fault Refusal := s.advance Station.findBitClash

/-! ## Faulty and rejected frames (R32, R33, R45) -/

/-- How a receiver that may assert the line refuses a faulty frame (R32). -/
def FaultReason.refusal : FaultReason → LinkDrive
  | .kind => .breaks
  | .short => .breaks
  | .check => .reject

/-- The receiver has found the frame faulty: it stops decoding, refuses it unless it is MUTE, and records FRAME_FAULT
(R32, R45). -/
def Station.refuseFrame (r : FaultReason) (sender : Option Station5) (s : Station) : Station :=
  { s with
    link.receiving := false
    link.goodRun := 0
    link.drive := if s.ctl.state = StationState.mute then LinkDrive.released else r.refusal }.addRecord
    { kind := .frameFault, station := sender, reason := some r.code }

/-- The receiver judges the levels of the frame it is decoding (R32). Levels in which it finds no fault change
nothing. -/
def Station.judgeLevels (levels : List Bool) (s : Station) : Station :=
  if s.receiverOn && s.link.receiving then
    match receive levels with
    | .fault r sender => s.refuseFrame r sender
    | .good _ => s
    | .unfinished => s
  else s

/-- FRAME_FAULT (R24, R27, R28, R32, R45). -/
def execFrameFault (levels : List Bool) (s : State) : Host.Outcome State Fault Refusal :=
  s.advance (Station.judgeLevels levels)

/-- A frame of another station ended without a take (R33, R45). -/
def Station.frameRejected (s : Station) : Station :=
  if s.receiverOn then { s with link.receiving := false, link.goodRun := 0 } else s

/-- FRAME_REJECTED (R33, R45). -/
def execFrameRejected (s : State) : Host.Outcome State Fault Refusal := s.advance Station.frameRejected

/-! ## The mark timer (R43) -/

/-- The mark timer expires: a MARK is enqueued into an empty queue, and the timer restarts (R43). A stopped timer
does not expire, and the expiry that falls together with an own take handled before it does not come (R48; log 24). -/
def Station.markExpires (s : Station) : Station :=
  if s.link.mark = .stopped then s
  else if s.link.ownTaken then { s with link.ownTaken := false }
  else if s.link.txq.isEmpty then (s.pushTx .mark .link).startMark
  else s.startMark

/-- MARK_TIMER_EXPIRY (R43). -/
def execMarkTimerExpiry (s : State) : Host.Outcome State Fault Refusal := s.advance Station.markExpires

/-! ## The take (R34) -/

/-- The sender's actions at the take of its own frame (R35). The restart of the mark timer takes the place of an expiry
that falls together with the take (R48). -/
def Station.takeOwn (s : Station) : Station :=
  { s with link.txq := s.link.txq.tail, link.fails := 0, link.ownTaken := true }.startMark

/-- A taken frame bears this station's number but was not sent by it (R44). -/
def Station.noteDuplicate (f : Frame) (s : Station) : Station :=
  if f.sender = s.settings.stationNumber then
    s.addRecord { kind := .dupStation, station := some f.sender, reason := some (f.payload.kind.code.setWidth 4) }
  else s

/-- In MUTE the take counts toward the good run; the 32nd returns the station (R45, R62). -/
def Station.countGoodFrame (s : Station) : Station :=
  if s.ctl.state ≠ .mute then s
  else if s.link.goodRun + 1 < Config.goodFramesToLeaveMute then { s with link.goodRun := s.link.goodRun + 1 }
  else { s with link.goodRun := 0 }.returnToResume .goodRun

/-- The fourth step of a take: the frame is applied by kind (R34). -/
def Station.applyKind (own : Bool) (f : Frame) (s : Station) : Station :=
  match f.payload with
  | .sight seq pos lane cls => s.takeSight f.stamp (sightItem f.sender seq pos lane cls)
  | .verdict item v => s.takeVerdict f.sender item v
  | .retire item => s.takeRetire item
  | .claim seq group start length =>
    s.takeClaim own f.stamp { tag := { origin := f.sender, seq := seq }, group := group, start := start, length := length }
  | .yield seq => s.takeYield { origin := f.sender, seq := seq }
  | .mark => s

/-- The purge and the application, the third and fourth steps of a take (R34). -/
def Station.applyFrame (own : Bool) (f : Frame) (s : Station) : Station := (s.purge f.stamp).applyKind own f

/-- The take of a frame that another station sent (R34). -/
def Station.takeOther (f : Frame) (s : Station) : Station :=
  (((s.noteDuplicate f).countGoodFrame).judgePosition f.sender (f.stamp - s.pos.capture)).applyFrame false f

/-- The frame on the line is over at this station. -/
def Station.frameOver (s : Station) : Station := { s with link.receiving := false, link.drive := .released }

/-- A frame is taken at the end of a released reject slot (R34). The frame a station has in flight is its own head with
the capture as stamp (R11; log 8). A station takes the frame it is decoding, and no other: a frame whose start bit it
did not see, or in which it found a fault, passes it by (R25, R32, R45). A station in HALTED takes nothing. -/
def Station.takeFrame (f : Frame) (s : Station) : Station :=
  if !s.receiverOn then s
  else
    match s.ownFrame with
    | some g => s.frameOver.takeOwn.applyFrame true g
    | none => if s.link.receiving then s.frameOver.takeOther f else s

/-- FRAME_TAKE (R34). -/
def execFrameTake (frame : Frame) (s : State) : Host.Outcome State Fault Refusal :=
  s.advance (Station.takeFrame frame)

end Sys2Proof.Machine
end

