-- ==== Sys2Proof/Machine/Operands.lean ====
section
/-! DEFINITION. Operand forms of the service port: command arguments, configuration items and their words, and the
words of registers and records (R178 to R188). -/

namespace Sys2Proof.Machine

/-! ## Command arguments (R180): each is the whole 32-bit word, compared with its range -/

/-- A station argument, 0..31. -/
def stationArg (w : Word) : Option Station5 := if w.toNat ≤ 31 then some (w.setWidth 5) else none

/-- A sequence argument, 0..255. -/
def seqArg (w : Word) : Option Seq8 := if w.toNat ≤ 255 then some (w.setWidth 8) else none

/-- An item tag in two arguments (R92, R93, R94). -/
def tagArg (origin seq : Word) : Option Tag :=
  match stationArg origin, seqArg seq with
  | some o, some q => some { origin := o, seq := q }
  | some _, none => none
  | none, some _ => none
  | none, none => none

/-- A verdict argument: 1 PASS, 2 REJECT (R94). -/
def verdictArg (w : Word) : Option (BitVec 2) := if w = 1 then some 1 else if w = 2 then some 2 else none

/-- A lane argument, 0..3 (R75). -/
def laneArg (w : Word) : Option (BitVec 2) := if w.toNat ≤ 3 then some (w.setWidth 2) else none

/-- A class argument, 0..15 (R75). -/
def classArg (w : Word) : Option (BitVec 4) := if w.toNat ≤ 15 then some (w.setWidth 4) else none

/-- The position of a POST_SIGHT: ARG2 is 0 for a position given in ARG3 and 1 for "now" (R75, R180). -/
def positionArg (now : Pos) (choice given : Word) : Option Pos :=
  if choice = 1 then some now
  else if choice = 0 then (if given.toNat ≤ 16777215 then some (given.setWidth 24) else none)
  else none

/-- A channel argument, 0..3 (R146, R158). -/
def channelArg (w : Word) : Option (Fin 4) := if h : w.toNat < 4 then some ⟨w.toNat, h⟩ else none

/-- A slot argument: 0 A, 1 B (R146, R158). -/
def slotArg (w : Word) : Option Slot := if w = 0 then some .a else if w = 1 then some .b else none

/-! ## Codes of enumerated settings (R186 to R188) -/

/-- BIT_RATE codes (R186). -/
def BitRate.code : BitRate → Word
  | .kbit125 => 0
  | .kbit250 => 1
  | .kbit500 => 2
  | .kbit1000 => 3

/-- BIT_RATE from its code (R186). -/
def BitRate.ofCode (w : Word) : Option BitRate :=
  if w = 0 then some .kbit125 else if w = 1 then some .kbit250 else if w = 2 then some .kbit500
  else if w = 3 then some .kbit1000 else none

/-- ENCODER_MODE codes (R186). -/
def EncoderMode.code : EncoderMode → Word
  | .quad4 => 0
  | .quad1 => 1
  | .pulseDir => 2

/-- ENCODER_MODE from its code (R186). -/
def EncoderMode.ofCode (w : Word) : Option EncoderMode :=
  if w = 0 then some .quad4 else if w = 1 then some .quad1 else if w = 2 then some .pulseDir else none

/-- PRESCALE from its value (R186). -/
def Prescale.ofValue (w : Word) : Option Prescale :=
  if w = 1 then some .by1 else if w = 2 then some .by2 else if w = 4 then some .by4
  else if w = 8 then some .by8 else none

/-- A single-value item in a range that its width holds (R185). -/
def rangeValue (low high w : Nat) (x : Word) : Option (BitVec w) :=
  if low ≤ x.toNat ∧ x.toNat ≤ high then some (x.setWidth w) else none

/-- MARK_INTERVAL: 0, or 10..10000 (R186). -/
def markIntervalValue (x : Word) : Option (BitVec 14) := if x = 0 then some 0 else rangeValue 10 10000 14 x

/-- Slot codes: 0 A, 1 B (R187). -/
def Slot.bit : Slot → BitVec 1
  | .a => 0
  | .b => 1

/-- A slot from its bit (R187). -/
def Slot.ofBool (b : Bool) : Slot := if b then .b else .a

/-- Edge codes: 0 RISING, 1 FALLING (R187). -/
def Edge.bit : Edge → BitVec 1
  | .rising => 0
  | .falling => 1

/-- Verdict condition codes (R187). -/
def Condition.code : Condition → BitVec 3
  | .any => 0
  | .pass => 1
  | .reject => 2
  | .notReject => 3
  | .undecided => 4

/-- A verdict condition from its code. Codes 5 to 7 are refused (R187). -/
def Condition.ofCode (c : BitVec 3) : Option Condition :=
  if c = 0 then some .any else if c = 1 then some .pass else if c = 2 then some .reject
  else if c = 3 then some .notReject else if c = 4 then some .undecided else none

/-- Late policy codes: 0 DROP, 1 FIRE_LATE (R187). -/
def LatePolicy.bit : LatePolicy → BitVec 1
  | .drop => 0
  | .fireLate => 1

/-- Window group codes: 0 none, 1..8 for G0..G7 (R187). -/
def groupCode : Option (BitVec 3) → BitVec 4
  | none => 0
  | some g => g.setWidth 4 + 1

/-- A window group from its code. Codes 9 to 15 are refused (R187). -/
def groupOfCode (c : BitVec 4) : Option (Option (BitVec 3)) :=
  if c = 0 then some none else if c.toNat ≤ 8 then some (some ((c - 1).setWidth 3)) else none

/-- Polarity codes: 0 ACTIVE_HIGH, 1 ACTIVE_LOW (R188). -/
def Polarity.bit : Polarity → BitVec 1
  | .activeHigh => 0
  | .activeLow => 1

/-- Aux role codes (R188). -/
def AuxRole.code : AuxRole → BitVec 2
  | .none => 0
  | .hold => 1
  | .inhibit => 2

/-- An aux role from its code. Code 3 is refused (R188). -/
def AuxRole.ofCode (c : BitVec 2) : Option AuxRole :=
  if c = 0 then some .none else if c = 1 then some .hold else if c = 2 then some .inhibit else Option.none

/-- A channel's number in a two-bit field. -/
def channelBits (c : Fin 4) : BitVec 2 := BitVec.ofFin c

/-- Form kind codes (R188). -/
def FormKind.code : FormKind → BitVec 2
  | .single => 0
  | .burst => 1
  | .held => 2

/-- A form kind from its code. Code 3 is refused (R188). -/
def FormKind.ofCode (c : BitVec 2) : Option FormKind :=
  if c = 0 then some .single else if c = 1 then some .burst else if c = 2 then some .held else none

/-! ## Item words: multi-field items, field by field (R185, R187, R188) -/

/-- Bits `start + w - 1` down to `start` of a word. -/
def bitsOf (start w : Nat) (x : Word) : BitVec w := x.extractLsb' start w

/-- Bit `n` of a word. -/
def bitOf (n : Nat) (x : Word) : Bool := x.getLsbD n

/-- SENSOR_n_MODE: enabled (0); edge (1); lane (5-4); class (11-8). -/
def SensorSettings.modeWord (c : SensorSettings) : Word :=
  (0#20 ++ c.cls ++ 0#2 ++ c.lane ++ 0#2 ++ c.edge.bit ++ BitVec.ofBool c.enabled : BitVec 32)

/-- SENSOR_n_MODE as written: every field's width is its range (R187). -/
def SensorSettings.writeMode (x : Word) (c : SensorSettings) : SensorSettings :=
  { c with
    enabled := bitOf 0 x
    edge := if bitOf 1 x then .falling else .rising
    lane := bitsOf 4 2 x
    cls := bitsOf 8 4 x }

/-- TEMPLATE_t_SELECT: enabled (0); lanes (7-4); channel (9-8); slot (10); condition (14-12); report (15); classes
(31-16). -/
def Template.selectWord (t : Template) : Word :=
  (t.classes ++ BitVec.ofBool t.report ++ t.condition.code ++ 0#1 ++ t.slot.bit ++ channelBits t.channel ++ t.lanes ++
    0#3 ++ BitVec.ofBool t.enabled : BitVec 32)

/-- TEMPLATE_t_SELECT as written, or refused for its condition code (R187). -/
def Template.writeSelect (x : Word) (t : Template) : Option Template :=
  match Condition.ofCode (bitsOf 12 3 x) with
  | none => none
  | some c =>
    some { t with
      enabled := bitOf 0 x
      lanes := bitsOf 4 4 x
      channel := (bitsOf 8 2 x).toFin
      slot := Slot.ofBool (bitOf 10 x)
      condition := c
      report := bitOf 15 x
      classes := bitsOf 16 16 x }

/-- TEMPLATE_t_TIMING: offset (15-0); late tolerance (23-16); late policy (24); window group (31-28). -/
def Template.timingWord (t : Template) : Word :=
  (groupCode t.group ++ 0#3 ++ t.policy.bit ++ t.tolerance ++ t.offset : BitVec 32)

/-- TEMPLATE_t_TIMING as written, or refused for its group code (R187). -/
def Template.writeTiming (x : Word) (t : Template) : Option Template :=
  match groupOfCode (bitsOf 28 4 x) with
  | none => none
  | some g =>
    some { t with
      offset := bitsOf 0 16 x
      tolerance := bitsOf 16 8 x
      policy := if bitOf 24 x then .fireLate else .drop
      group := g }

/-- TEMPLATE_t_WINDOW: window lead (11-0); window length (31-16). -/
def Template.windowWord (t : Template) : Word := (t.length ++ 0#4 ++ t.lead : BitVec 32)

/-- TEMPLATE_t_WINDOW as written, or refused for a length of 0 (R187). -/
def Template.writeWindow (x : Word) (t : Template) : Option Template :=
  if bitsOf 16 16 x = 0 then none else some { t with lead := bitsOf 0 12 x, length := bitsOf 16 16 x }

/-- CHANNEL_c_SETTINGS: polarity (0); aux role (5-4); aux input (9-8); chain present (12); chain channel (14-13);
chain slot (15). -/
def ChannelSettings.word (c : ChannelSettings) : Word :=
  (0#16 ++ c.chainSlot.bit ++ channelBits c.chainChannel ++ BitVec.ofBool c.chained ++ 0#2 ++ channelBits c.input ++
    0#2 ++ c.role.code ++ 0#3 ++ c.polarity.bit : BitVec 32)

/-- CHANNEL_c_SETTINGS as written, or refused for its aux role code (R188). -/
def ChannelSettings.ofWord (x : Word) : Option ChannelSettings :=
  match AuxRole.ofCode (bitsOf 4 2 x) with
  | none => none
  | some r =>
    some { polarity := if bitOf 0 x then .activeLow else .activeHigh
           role := r
           input := (bitsOf 8 2 x).toFin
           chained := bitOf 12 x
           chainChannel := (bitsOf 13 2 x).toFin
           chainSlot := Slot.ofBool (bitOf 15 x) }

/-- FORM_c_s_SHAPE: delay (15-0); kind (17-16); burst count (31-24). -/
def Form.shapeWord (f : Form) : Word := (f.burst ++ 0#6 ++ f.kind.code ++ f.delay : BitVec 32)

/-- The fields of a SHAPE word, or none for a kind code of 3 or a burst count of 0 (R188). -/
def shapeFields (x : Word) : Option (Form → Form) :=
  match FormKind.ofCode (bitsOf 16 2 x) with
  | none => none
  | some k =>
    if bitsOf 24 8 x = 0 then none
    else some (fun f => { f with delay := bitsOf 0 16 x, kind := k, burst := bitsOf 24 8 x })

/-- FORM_c_s_WIDTHS: high width (15-0); low width (31-16). -/
def Form.widthsWord (f : Form) : Word := (f.low ++ f.high : BitVec 32)

/-- The fields of a WIDTHS word, or none for a width of 0 (R188). -/
def widthsFields (x : Word) : Option (Form → Form) :=
  if bitsOf 0 16 x = 0 ∨ bitsOf 16 16 x = 0 then none
  else some (fun f => { f with high := bitsOf 0 16 x, low := bitsOf 16 16 x })

/-- The field of a CAP word: a single value, 0..65535 (R188). -/
def capField (x : Word) : Option (Form → Form) :=
  match rangeValue 0 65535 16 x with
  | none => none
  | some v => some (fun f => { f with cap := v })

/-! ## Item numbers (R186 to R188) -/

/-- A configuration item. -/
inductive ConfigItem
  | identity | stationNumber | bitRate | encoderMode | prescale | skewTolerance | joinWait | markInterval
  | trackHorizon | claimHorizon | attnThreshold
  | sensorMode (n : Fin 4) | sensorGap (n : Fin 4)
  | templateOrigins (t : Fin 16) | templateSelect (t : Fin 16) | templateTiming (t : Fin 16)
  | templateWindow (t : Fin 16)
  | channelSettings (c : Fin 4)
  | formShape (c : Fin 4) (slot : Slot) | formWidths (c : Fin 4) (slot : Slot) | formCap (c : Fin 4) (slot : Slot)
  | void
deriving DecidableEq, Repr

/-- Items 0..15 (R186). -/
def stationItem (k : Nat) : ConfigItem :=
  match k with
  | 0 => .identity
  | 1 => .stationNumber
  | 2 => .bitRate
  | 3 => .encoderMode
  | 4 => .prescale
  | 5 => .skewTolerance
  | 6 => .joinWait
  | 7 => .markInterval
  | 8 => .trackHorizon
  | 9 => .claimHorizon
  | 10 => .attnThreshold
  | _ => .void

/-- Items 16..31, by sensor and place (R187). -/
def sensorItem (n : Fin 4) (place : Nat) : ConfigItem :=
  match place with
  | 0 => .sensorMode n
  | 1 => .sensorGap n
  | _ => .void

/-- Items 32..95, by template and place (R187). -/
def templateItem (t : Fin 16) (place : Nat) : ConfigItem :=
  match place with
  | 0 => .templateOrigins t
  | 1 => .templateSelect t
  | 2 => .templateTiming t
  | 3 => .templateWindow t
  | _ => .void

/-- Items 96..127, by channel and place (R188). -/
def channelItem (c : Fin 4) (place : Nat) : ConfigItem :=
  match place with
  | 0 => .channelSettings c
  | 1 => .formShape c .a
  | 2 => .formWidths c .a
  | 3 => .formCap c .a
  | 4 => .formShape c .b
  | 5 => .formWidths c .b
  | 6 => .formCap c .b
  | _ => .void

/-- The item of a number, 0..255; 128..255 are treated as VOID (R185). -/
def itemOf (number : BitVec 8) : ConfigItem :=
  if number.toNat < 16 then stationItem number.toNat
  else if number.toNat < 32 then sensorItem (Fin.ofNat 4 ((number.toNat - 16) / 4)) ((number.toNat - 16) % 4)
  else if number.toNat < 96 then templateItem (Fin.ofNat 16 ((number.toNat - 32) / 4)) ((number.toNat - 32) % 4)
  else if number.toNat < 128 then channelItem (Fin.ofNat 4 ((number.toNat - 96) / 8)) ((number.toNat - 96) % 8)
  else .void

/-- The access classes (R185). -/
inductive ItemClass
  | fixed | locked | live | void
deriving DecidableEq, Repr

/-- The class of an item (R186 to R188). -/
def ConfigItem.itemClass : ConfigItem → ItemClass
  | .identity => .fixed
  | .attnThreshold => .live
  | .formShape _ _ => .live
  | .formWidths _ _ => .live
  | .formCap _ _ => .live
  | .void => .void
  | .stationNumber => .locked
  | .bitRate => .locked
  | .encoderMode => .locked
  | .prescale => .locked
  | .skewTolerance => .locked
  | .joinWait => .locked
  | .markInterval => .locked
  | .trackHorizon => .locked
  | .claimHorizon => .locked
  | .sensorMode _ => .locked
  | .sensorGap _ => .locked
  | .templateOrigins _ => .locked
  | .templateSelect _ => .locked
  | .templateTiming _ => .locked
  | .templateWindow _ => .locked
  | .channelSettings _ => .locked

/-- The word an item holds; a form item holds the staged copy, and a VOID item reads 0 (R145, R185). -/
def Station.itemWord (s : Station) : ConfigItem → Word
  | .identity => Config.identity
  | .stationNumber => s.settings.stationNumber.setWidth 32
  | .bitRate => s.settings.bitRate.code
  | .encoderMode => s.settings.encoderMode.code
  | .prescale => BitVec.ofNat 32 s.settings.prescale.counts
  | .skewTolerance => s.settings.skewTolerance.setWidth 32
  | .joinWait => s.settings.joinWait.setWidth 32
  | .markInterval => s.settings.markInterval.setWidth 32
  | .trackHorizon => s.settings.trackHorizon.setWidth 32
  | .claimHorizon => s.settings.claimHorizon.setWidth 32
  | .attnThreshold => s.settings.attnThreshold.setWidth 32
  | .sensorMode n => (s.settings.sensors.get n).modeWord
  | .sensorGap n => (s.settings.sensors.get n).gap.setWidth 32
  | .templateOrigins t => (s.settings.templates.get t).origins
  | .templateSelect t => (s.settings.templates.get t).selectWord
  | .templateTiming t => (s.settings.templates.get t).timingWord
  | .templateWindow t => (s.settings.templates.get t).windowWord
  | .channelSettings c => (s.settings.channels.get c).word
  | .formShape c sl => ((s.chan c).slot sl).staged.shapeWord
  | .formWidths c sl => ((s.chan c).slot sl).staged.widthsWord
  | .formCap c sl => ((s.chan c).slot sl).staged.cap.setWidth 32
  | .void => 0

/-! ## Register words (R178 to R180) -/

/-- STATUS (R179). -/
def Station.statusWord (s : Station) : Word :=
  (0#7 ++ BitVec.ofBool s.attn ++ 0#2 ++ BitVec.ofNat 6 s.events.length ++ 0#5 ++ s.port.access.code ++ 0#1 ++
    (match s.ctl.resume with
      | none => 7#3
      | some r => BitVec.ofNat 3 r.toState.number) ++
    0#1 ++ BitVec.ofNat 3 s.ctl.state.number : BitVec 32)

/-- The code of the encoder direction (R179). -/
def Direction.bit : Direction → BitVec 1
  | .forward => 0
  | .reverse => 1

/-- POSITION (R179). -/
def Station.positionWord (s : Station) : Word := (0#7 ++ s.pos.dir.bit ++ s.pos.count : BitVec 32)

/-- FILL (R179). -/
def Station.fillWord (s : Station) : Word :=
  (0#2 ++ BitVec.ofNat 6 s.events.length ++ BitVec.ofNat 5 s.link.txq.length ++ BitVec.ofNat 6 s.claims.length ++
    BitVec.ofNat 7 s.agenda.length ++ BitVec.ofNat 6 s.track.length : BitVec 32)

/-- RESULT (R180). -/
def CommandResult.word (r : CommandResult) : Word := (r.detail ++ r.command ++ r.code.code : BitVec 32)

/-- Collection codes (R182). -/
def Collection.code : Collection → BitVec 3
  | .track => 0
  | .agenda => 1
  | .claims => 2
  | .txq => 3
  | .events => 4

/-- A collection from its code. Codes 5 to 7 are refused (R182). -/
def Collection.ofCode (c : BitVec 3) : Option Collection :=
  if c = 0 then some .track else if c = 1 then some .agenda else if c = 2 then some .claims
  else if c = 3 then some .txq else if c = 4 then some .events else none

/-- TABLE_SEL (R182). -/
def TableSel.word (t : TableSel) : Word := (0#16 ++ t.index ++ 0#5 ++ t.collection.code : BitVec 32)

/-- The value a read of a register returns (R178). -/
def Station.registerWord (s : Station) (number : BitVec 8) : Word :=
  match number.toNat with
  | 0 => Config.identity
  | 1 => s.statusWord
  | 2 => s.positionWord
  | 3 => s.port.command.setWidth 32
  | 4 => s.port.args.r0
  | 5 => s.port.args.r1
  | 6 => s.port.args.r2
  | 7 => s.port.args.r3
  | 8 => s.port.result.word
  | 9 => s.port.sel.word
  | 10 => s.port.record.r0
  | 11 => s.port.record.r1
  | 12 => s.port.record.r2
  | 13 => s.port.record.r3
  | 14 => s.fillWord
  | _ => 0

/-! ## Record words (R183, R184) -/

/-- A tag in thirteen bits (R183). -/
def Tag.bits (t : Tag) : BitVec 13 := t.origin ++ t.seq

/-- Verdict codes (R183). -/
def Verdict.code : Verdict → BitVec 2
  | .undecided => 0
  | .pass => 1
  | .reject => 2

/-- An item record (R183, TRACK). -/
def Item.record (i : Item) : Record4 :=
  { r0 := (1#1 ++ 0#18 ++ Tag.bits i.tag : BitVec 32)
    r1 := (0#8 ++ i.sighting : BitVec 32)
    r2 := (0#11 ++ i.source.getD 0 ++ BitVec.ofBool i.source.isSome ++ 0#5 ++ i.verdict.code ++ i.cls ++ 0#2 ++ i.lane :
            BitVec 32)
    r3 := 0 }

/-- Claim state codes (R183). -/
def ClaimState.code : ClaimState → BitVec 2
  | .none => 0
  | .wanted _ => 1
  | .held _ => 2
  | .lost => 3

/-- The claim sequence, present in WANTED and HELD (R101). -/
def ClaimState.seq : ClaimState → Option Seq8
  | .wanted q => some q
  | .held q => some q
  | .none => Option.none
  | .lost => Option.none

/-- An agenda record (R183, AGENDA). -/
def Entry.record (e : Entry) : Record4 :=
  { r0 := (1#1 ++ 0#7 ++ e.fire : BitVec 32)
    r1 := (0#12 ++ (BitVec.ofFin e.template : BitVec 4) ++ 0#3 ++ Tag.bits e.item : BitVec 32)
    r2 := (0#8 ++ e.claim.seq.getD 0 ++ 0#7 ++ BitVec.ofBool e.claim.seq.isSome ++ 0#6 ++ e.claim.code : BitVec 32)
    r3 := 0 }

/-- A claim record (R183, CLAIMS). -/
def Claim.record (c : Claim) : Record4 :=
  { r0 := (1#1 ++ 0#12 ++ c.group ++ 0#3 ++ Tag.bits c.tag : BitVec 32)
    r1 := (0#8 ++ c.start : BitVec 32)
    r2 := c.length.setWidth 32
    r3 := (0#8 ++ (c.start + c.length.setWidth 24) : BitVec 32) }

/-- Origin codes (R184). -/
def TxOrigin.code : TxOrigin → BitVec 2
  | .sensor => 0
  | .agenda => 1
  | .host => 2
  | .link => 3

/-- RECORD1 of a queue entry, by kind (R184). -/
def txRecord1 : Payload → Word
  | .sight seq _ lane cls => (0#16 ++ cls ++ 0#2 ++ lane ++ seq : BitVec 32)
  | .verdict item v => (0#14 ++ v ++ 0#3 ++ Tag.bits item : BitVec 32)
  | .retire item => (0#19 ++ Tag.bits item : BitVec 32)
  | .yield seq => seq.setWidth 32
  | .claim seq group _ _ => (0#21 ++ group ++ seq : BitVec 32)
  | .mark => 0

/-- RECORD2 of a queue entry, by kind (R184). -/
def txRecord2 : Payload → Word
  | .sight _ pos _ _ => pos.setWidth 32
  | .claim _ _ start _ => start.setWidth 32
  | .verdict _ _ => 0
  | .retire _ => 0
  | .yield _ => 0
  | .mark => 0

/-- RECORD3 of a queue entry, by kind (R184). -/
def txRecord3 : Payload → Word
  | .claim _ _ _ length => length.setWidth 32
  | .sight _ _ _ _ => 0
  | .verdict _ _ => 0
  | .retire _ => 0
  | .yield _ => 0
  | .mark => 0

/-- A transmit queue record (R184, TXQ). -/
def TxEntry.record (e : TxEntry) : Record4 :=
  { r0 := (1#1 ++ BitVec.ofBool e.inFlight ++ 0#3 ++ e.payload.kind.code ++ 0#2 ++ BitVec.ofNat 2 e.attempts ++ 0#2 ++
            e.origin.code ++ 0#16 : BitVec 32)
    r1 := txRecord1 e.payload
    r2 := txRecord2 e.payload
    r3 := txRecord3 e.payload }

/-- An event record (R184, EVENTS); an absent field reads 0. -/
def EventRecord.record (e : EventRecord) : Record4 :=
  { r0 := (1#1 ++ BitVec.ofBool e.lostAfter ++ 0#1 ++ e.fields.kind.code ++ e.pos : BitVec 32)
    r1 := (BitVec.ofBool e.fields.item.isSome ++ BitVec.ofBool e.fields.template.isSome ++
            BitVec.ofBool e.fields.channel.isSome ++ BitVec.ofBool e.fields.station.isSome ++
            BitVec.ofBool e.fields.claim.isSome ++ BitVec.ofBool e.fields.value.isSome ++
            BitVec.ofBool e.fields.reason.isSome ++ 0#3 ++ channelBits (e.fields.channel.getD 0) ++
            (BitVec.ofFin (e.fields.template.getD 0) : BitVec 4) ++ 0#3 ++ (e.fields.item.map Tag.bits).getD 0 :
            BitVec 32)
    r2 := (0#4 ++ e.fields.reason.getD 0 ++ 0#3 ++ e.fields.station.getD 0 ++ 0#3 ++
            (e.fields.claim.map Tag.bits).getD 0 : BitVec 32)
    r3 := BitVec.ofInt 32 (e.fields.value.getD 0) }

/-- The record at an index of a collection, or the all-zero record (R182). -/
def Station.recordAt (s : Station) (c : Collection) (index : Nat) : Record4 :=
  match c with
  | .track => ((s.track[index]?).map Item.record).getD Record4.zero
  | .agenda => ((s.agenda[index]?).map Entry.record).getD Record4.zero
  | .claims => ((s.claims[index]?).map Claim.record).getD Record4.zero
  | .txq => ((s.link.txq[index]?).map TxEntry.record).getD Record4.zero
  | .events => ((s.events[index]?).map EventRecord.record).getD Record4.zero

end Sys2Proof.Machine
end

