-- ==== Sys2Proof/Machine/Sensors.lean ====
section
/-! DEFINITION. Sensor inputs: readings, edges by station state, gap suppression and sightings (Chapter 4). -/

namespace Sys2Proof.Machine

/-- A sensor input. -/
def Station.sensor (s : Station) (n : Fin 4) : SensorInput := s.sense.inputs.get n

/-- A sensor input is replaced. -/
def Station.setSensor (n : Fin 4) (i : SensorInput) (s : Station) : Station :=
  { s with sense.inputs := s.sense.inputs.set n.val i n.isLt }

/-- A change to `level` is an edge of a sensor with these settings (R66, R67). -/
def SensorSettings.isEdge (c : SensorSettings) (level : Bool) : Bool :=
  c.enabled && (match c.edge with | .rising => level | .falling => !level)

/-- A sighting draws its sequence and its SIGHT is enqueued, or lost to a full queue (R71, R72). -/
def Station.makeSighting (pos : Pos) (lane : BitVec 2) (cls : BitVec 4) (s : Station) : Station :=
  { s with sense.seq := s.sense.seq + 1 }.enqueue (.sight s.sense.seq pos lane cls) .sensor

/-- The gap suppresses an edge at position `p` (R70). -/
def suppressed (p : Pos) (last : Option Pos) (gap : BitVec 16) : Bool :=
  match last with
  | none => false
  | some l => decide (dist p l < gap.toNat)

/-- A taken sensor edge (R70 to R72). -/
def Station.takeEdge (n : Fin 4) (s : Station) : Station :=
  if suppressed s.pos.count (s.sensor n).last (s.settings.sensors.get n).gap then s
  else (s.setSensor n { s.sensor n with last := some s.pos.count }).makeSighting s.pos.count
    (s.settings.sensors.get n).lane (s.settings.sensors.get n).cls

/-- A sensor edge by station state (R68, R69). -/
def Station.sensorEdge (n : Fin 4) (s : Station) : Station :=
  match s.ctl.state with
  | .halted => s
  | .joining => s
  | .settling => s.takeEdge n
  | .active => s.takeEdge n
  | .drifted => s.takeEdge n
  | .mute => s.addRecord { kind := .sightLost, value := some (n.val : Int), reason := some reasonEdge }

/-- A sensor input is read at a level (R67). -/
def Station.sensorRead (n : Fin 4) (level : Bool) (s : Station) : Station :=
  if level = (s.sensor n).level then s
  else if (s.settings.sensors.get n).isEdge level then
    (s.setSensor n { s.sensor n with level := level }).sensorEdge n
  else s.setSensor n { s.sensor n with level := level }

/-- SENSOR_INPUT_CHANGE (R67 to R72). -/
def execSensorInputChange (sensor : Fin 4) (level : Bool) (s : State) : Host.Outcome State Fault Refusal :=
  s.advance (Station.sensorRead sensor level)

end Sys2Proof.Machine
end

