-- ==== Sys2Proof/Machine/Commands.lean ====
section
/-! DEFINITION. The controller's ten commands and the unassigned codes: COMMAND writes with their state checks, argument
checks, effects and answers (Chapters 3 to 9 as cited; R51, R180, R181). -/

namespace Sys2Proof.Machine

/-- What a command answers: its result code and detail, and the station it leaves (R180). -/
structure Answer where
  station : Station
  code : ResultCode
  detail : BitVec 16

/-- A command is answered with detail 0. -/
def Station.answer (s : Station) (code : ResultCode) : Answer := { station := s, code := code, detail := 0 }

/-- A COMMAND write: it is taken (OK), COMMAND keeps the code, the port drives MISO low, the command runs, and RESULT
holds its outcome (R175, R177, R180). -/
def Station.runCommand (code : BitVec 8) (body : Station → Answer) (s : Station) : Station :=
  { (body { s with port.command := code, port.access := .ok, port.miso := 0 }).station with
    port.result :=
      { command := code
        code := (body { s with port.command := code, port.access := .ok, port.miso := 0 }).code
        detail := (body { s with port.command := code, port.access := .ok, port.miso := 0 }).detail } }

/-- POST_SIGHT, POST_VERDICT and RETIRE_ITEM are allowed in SETTLING and ACTIVE alone (R51). -/
def Station.whenInService (body : Station → Answer) (s : Station) : Answer :=
  if s.ctl.state.inService then body s else s.answer .refusedState

/-! ## START (R52 to R54) -/

/-- Check 1: an enabled template's offset is not less than the track horizon (R53). -/
def Station.offsetFault (s : Station) (t : Fin 16) : Bool :=
  (s.template t).enabled && decide (s.settings.trackHorizon.toNat ≤ (s.template t).offset.toNat)

/-- Check 2: an enabled windowed template's offset plus its window length exceeds the claim horizon (R53). -/
def Station.windowFault (s : Station) (t : Fin 16) : Bool :=
  (s.template t).enabled && (s.template t).windowed &&
    decide (s.settings.claimHorizon.toNat < (s.template t).offset.toNat + (s.template t).length.toNat)

/-- The follow-on channel of a channel, whatever slot its chain names (R53). -/
def Station.chainNext (s : Station) (c : Fin 4) : Option (Fin 4) :=
  if (s.settings.channels.get c).chained then some (s.settings.channels.get c).chainChannel else none

/-- The channel reached after `n` chains, or none where the path ends (R53). -/
def Station.chainAfter (s : Station) : Nat → Fin 4 → Option (Fin 4)
  | 0, c => some c
  | n + 1, c => (s.chainNext c).bind (Station.chainAfter s n)

/-- The lower of two channels where both are present. -/
def lowerChannel (a : Fin 4) (b : Option (Fin 4)) : Fin 4 :=
  match b with
  | none => a
  | some b => if b < a then b else a

/-- The lowest-numbered channel on the cycle that `x` lies on (R53). -/
def Station.cycleLowest (s : Station) (x : Fin 4) : Fin 4 :=
  lowerChannel (lowerChannel (lowerChannel x (s.chainAfter 1 x)) (s.chainAfter 2 x)) (s.chainAfter 3 x)

/-- Check 3 from one channel: after four chains that do not end, the path is on a cycle (R53). -/
def Station.chainFault (s : Station) (c : Fin 4) : Option (Fin 4) := (s.chainAfter 4 c).map s.cycleLowest

/-- The first fault that START validation finds: its code and the template or channel number (R53). -/
def Station.validate (s : Station) : Option (ResultCode × BitVec 16) :=
  match (List.finRange 16).find? s.offsetFault with
  | some t => some (.refusedOffset, BitVec.ofNat 16 t.val)
  | none =>
    match (List.finRange 16).find? s.windowFault with
    | some t => some (.refusedWindow, BitVec.ofNat 16 t.val)
    | none =>
      match (List.finRange 4).findSome? s.chainFault with
      | some c => some (.refusedChain, BitVec.ofNat 16 c.val)
      | none => none

/-- An accepted START (R54). -/
def Station.accept (s : Station) : Station :=
  { s with
    link.idle := false
    link.receiving := false
    link.drive := .released
    ctl.join := .running (s.settings.joinWait.toNat * Config.microsPerMilli) }.changeState .joining .start

/-- START (R51, R52). -/
def Station.start (s : Station) : Answer :=
  if s.ctl.state ≠ .halted then s.answer .refusedState
  else
    match s.validate with
    | some (code, detail) => { station := s, code := code, detail := detail }
    | none => s.accept.answer .done

/-! ## STOP and RESUME (R62, R63) -/

/-- Everything that STOP empties, clears and stops, but the station state (R63). -/
def Station.clearForStop (s : Station) : Station :=
  { s with
    pos.matchReg := none
    pos.suspect := none
    link := { txq := [], fails := 0, mark := .stopped, goodRun := 0, idle := false, receiving := false,
              drive := .released, ownTaken := false }
    ctl.resume := none
    ctl.join := .stopped
    ctl.settleStart := none
    sense.inputs := s.sense.inputs.map (fun i => { i with last := none })
    track := []
    agenda := []
    claims := []
    channels := s.channels.map (fun c => { c with run := none }) }

/-- STOP (R51, R63). -/
def Station.stop (s : Station) : Answer :=
  if s.ctl.state = .halted then s.answer .refusedState
  else (s.clearForStop.changeState .halted .stop).answer .done

/-- RESUME (R51, R62). -/
def Station.resume (s : Station) : Answer :=
  if s.ctl.state ≠ .mute then s.answer .refusedState
  else ({ s with link.goodRun := 0 }.returnToResume .resume).answer .done

/-! ## POST_SIGHT, POST_VERDICT, RETIRE_ITEM (R75, R93, R94) -/

/-- A frame of origin HOST is enqueued, DONE, or refused with TXQ_FULL and REFUSED_FULL (R93, R94). -/
def Station.enqueueHost (p : Payload) (s : Station) : Answer :=
  (s.enqueue p .host).answer (if s.txFull then .refusedFull else .done)

/-- A checked POST_SIGHT makes a sighting; RESULT carries the sequence (R75). -/
def Station.postSightAt (pos : Pos) (lane : BitVec 2) (cls : BitVec 4) (s : Station) : Answer :=
  { station := s.makeSighting pos lane cls
    code := if s.txFull then .refusedFull else .done
    detail := s.sense.seq.setWidth 16 }

/-- POST_SIGHT after the state check (R75). -/
def Station.postSightArgs (s : Station) : Answer :=
  match laneArg s.port.args.r0, classArg s.port.args.r1, positionArg s.pos.count s.port.args.r2 s.port.args.r3 with
  | some lane, some cls, some pos => s.postSightAt pos lane cls
  | some _, some _, none => s.answer .refusedArg
  | some _, none, _ => s.answer .refusedArg
  | none, _, _ => s.answer .refusedArg

/-- POST_VERDICT after the state check (R94). -/
def Station.postVerdictArgs (s : Station) : Answer :=
  match tagArg s.port.args.r0 s.port.args.r1, verdictArg s.port.args.r2 with
  | some tag, some v => s.enqueueHost (.verdict tag v)
  | some _, none => s.answer .refusedArg
  | none, _ => s.answer .refusedArg

/-- RETIRE_ITEM after the state check (R93). -/
def Station.retireItemArgs (s : Station) : Answer :=
  match tagArg s.port.args.r0 s.port.args.r1 with
  | some tag => s.enqueueHost (.retire tag)
  | none => s.answer .refusedArg

/-! ## DROP_ITEM, FORCE_FIRE, COMMIT_FORM, POP_EVENT (R92, R146, R158, R171) -/

/-- DROP_ITEM (R92). -/
def Station.dropItem (s : Station) : Answer :=
  match tagArg s.port.args.r0 s.port.args.r1 with
  | none => s.answer .refusedArg
  | some tag => if (s.findItem tag).isSome then (s.removeItem tag).answer .done else s.answer .notFound

/-- The answer of a FORCE_FIRE to the outcome of its request (R158, R181). -/
def FireOutcome.answerCode : FireOutcome → ResultCode
  | .loaded => .done
  | .inhibited => .inhibited
  | .collision => .collision

/-- The detail of a FORCE_FIRE answer: the channel number for INHIBITED and COLLISION (R181). -/
def FireOutcome.detail (c : Fin 4) : FireOutcome → BitVec 16
  | .loaded => 0
  | .inhibited => BitVec.ofNat 16 c.val
  | .collision => BitVec.ofNat 16 c.val

/-- FORCE_FIRE (R158). -/
def Station.forceFire (s : Station) : Answer :=
  match channelArg s.port.args.r0, slotArg s.port.args.r1 with
  | some c, some slot =>
    { station := s.fireRequest c slot .force none
      code := (s.fireOutcome c).answerCode
      detail := (s.fireOutcome c).detail c }
  | some _, none => s.answer .refusedArg
  | none, _ => s.answer .refusedArg

/-- A slot's commit-pending flag is set (R146). -/
def Station.setCommit (c : Fin 4) (slot : Slot) (s : Station) : Station :=
  s.setChan c ((s.chan c).setSlot slot { (s.chan c).slot slot with pending := true })

/-- COMMIT_FORM (R146). -/
def Station.commitForm (s : Station) : Answer :=
  match channelArg s.port.args.r0, slotArg s.port.args.r1 with
  | some c, some slot =>
    { station := s.setCommit c slot
      code := .done
      detail := if ((s.chan c).slot slot).pending then 1 else 0 }
  | some _, none => s.answer .refusedArg
  | none, _ => s.answer .refusedArg

/-- POP_EVENT (R171). -/
def Station.popEvent (s : Station) : Answer :=
  match s.events with
  | [] => { s with port.record := Record4.zero }.answer .empty
  | e :: es => { s with events := es, port.record := e.record }.answer .done

/-! ## Meanings -/

/-- START (R52). -/
def Station.startCommand (s : Station) : Station := s.runCommand 1 Station.start

/-- STOP (R63). -/
def Station.stopCommand (s : Station) : Station := s.runCommand 2 Station.stop

/-- RESUME (R62). -/
def Station.resumeCommand (s : Station) : Station := s.runCommand 3 Station.resume

/-- POST_SIGHT (R75). -/
def Station.postSightCommand (s : Station) : Station := s.runCommand 4 (Station.whenInService Station.postSightArgs)

/-- POST_VERDICT (R94). -/
def Station.postVerdictCommand (s : Station) : Station :=
  s.runCommand 5 (Station.whenInService Station.postVerdictArgs)

/-- RETIRE_ITEM (R93). -/
def Station.retireItemCommand (s : Station) : Station := s.runCommand 6 (Station.whenInService Station.retireItemArgs)

/-- DROP_ITEM (R92). -/
def Station.dropItemCommand (s : Station) : Station := s.runCommand 7 Station.dropItem

/-- FORCE_FIRE (R158). -/
def Station.forceFireCommand (s : Station) : Station := s.runCommand 8 Station.forceFire

/-- COMMIT_FORM (R146). -/
def Station.commitFormCommand (s : Station) : Station := s.runCommand 9 Station.commitForm

/-- POP_EVENT (R171). -/
def Station.popEventCommand (s : Station) : Station := s.runCommand 10 Station.popEvent

/-- A code that runs no command (R180). -/
def Station.unassigned (code : BitVec 8) (s : Station) : Station := s.runCommand code (fun t => t.answer .refusedArg)

/-- A COMMAND write by its code (R180). -/
def Station.commandWrite (code : BitVec 8) (s : Station) : Station :=
  match code.toNat with
  | 1 => s.startCommand
  | 2 => s.stopCommand
  | 3 => s.resumeCommand
  | 4 => s.postSightCommand
  | 5 => s.postVerdictCommand
  | 6 => s.retireItemCommand
  | 7 => s.dropItemCommand
  | 8 => s.forceFireCommand
  | 9 => s.commitFormCommand
  | 10 => s.popEventCommand
  | _ => s.unassigned code

/-- START (R52 to R54). -/
def execStart (s : State) : Host.Outcome State Fault Refusal := s.advance Station.startCommand

/-- STOP (R63). -/
def execStop (s : State) : Host.Outcome State Fault Refusal := s.advance Station.stopCommand

/-- RESUME (R62). -/
def execResume (s : State) : Host.Outcome State Fault Refusal := s.advance Station.resumeCommand

/-- POST_SIGHT (R75). -/
def execPostSight (s : State) : Host.Outcome State Fault Refusal := s.advance Station.postSightCommand

/-- POST_VERDICT (R94). -/
def execPostVerdict (s : State) : Host.Outcome State Fault Refusal := s.advance Station.postVerdictCommand

/-- RETIRE_ITEM (R93). -/
def execRetireItem (s : State) : Host.Outcome State Fault Refusal := s.advance Station.retireItemCommand

/-- DROP_ITEM (R92). -/
def execDropItem (s : State) : Host.Outcome State Fault Refusal := s.advance Station.dropItemCommand

/-- FORCE_FIRE (R158). -/
def execForceFire (s : State) : Host.Outcome State Fault Refusal := s.advance Station.forceFireCommand

/-- COMMIT_FORM (R146). -/
def execCommitForm (s : State) : Host.Outcome State Fault Refusal := s.advance Station.commitFormCommand

/-- POP_EVENT (R171). -/
def execPopEvent (s : State) : Host.Outcome State Fault Refusal := s.advance Station.popEventCommand

/-- UNASSIGNED_COMMAND (R180). A COMMAND write runs the command of its code, so a code of 1 to 10, which is not this
row's, runs that command (log 16). -/
def execUnassignedCommand (code : BitVec 8) (s : State) : Host.Outcome State Fault Refusal :=
  s.advance (Station.commandWrite code)

end Sys2Proof.Machine
end

