-- ==== Sys2Proof/Machine/Port.lean ====
section
/-! DEFINITION. The service port's register and configuration transactions, and device reset (Chapter 10; R64). -/

namespace Sys2Proof.Machine

/-- The last access result and the word the port drives on MISO (R175, R177). -/
def Station.portAnswers (access : Access) (miso : Word) (s : Station) : Station :=
  { s with port.access := access, port.miso := miso }

/-! ## Configuration (R185) -/

/-- The settings are replaced. -/
def Station.withSettings (c : Settings) (s : Station) : Station := { s with settings := c }

/-- A sensor's settings are replaced. -/
def Station.setSensorSettings (n : Fin 4) (c : SensorSettings) (s : Station) : Station :=
  { s with settings.sensors := s.settings.sensors.set n.val c n.isLt }

/-- A template is replaced. -/
def Station.setTemplate (t : Fin 16) (c : Template) (s : Station) : Station :=
  { s with settings.templates := s.settings.templates.set t.val c t.isLt }

/-- A channel's settings are replaced, and its hold and inhibit conditions are worked out afresh (R160). -/
def Station.setChannelSettings (c : Fin 4) (x : ChannelSettings) (s : Station) : Station :=
  Station.conditionsChanged s { s with settings.channels := s.settings.channels.set c.val x c.isLt }

/-- A form write reaches the live and the staged copy in HALTED and the staged copy alone in every other state
(R145). -/
def Station.writeForm (c : Fin 4) (slot : Slot) (f : Form → Form) (s : Station) : Station :=
  s.setChan c ((s.chan c).setSlot slot
    { (s.chan c).slot slot with
      live := if s.ctl.state = .halted then f ((s.chan c).slot slot).live else ((s.chan c).slot slot).live
      staged := f ((s.chan c).slot slot).staged })

/-- The station after an item has taken a word, or none where a field lies outside its range (R185 steps 4 and 5). -/
def Station.takeItem (i : ConfigItem) (x : Word) (s : Station) : Option Station :=
  match i with
  | .identity => none
  | .stationNumber => (rangeValue 0 31 5 x).map fun v => s.withSettings { s.settings with stationNumber := v }
  | .bitRate => (BitRate.ofCode x).map fun v => s.withSettings { s.settings with bitRate := v }
  | .encoderMode =>
    (EncoderMode.ofCode x).map fun v =>
      { s.withSettings { s.settings with encoderMode := v } with pos.ref := s.pins.enc }
  | .prescale =>
    (Prescale.ofValue x).map fun v => { s.withSettings { s.settings with prescale := v } with pos.sub := 0 }
  | .skewTolerance => (rangeValue 0 255 8 x).map fun v => s.withSettings { s.settings with skewTolerance := v }
  | .joinWait => (rangeValue 1 65535 16 x).map fun v => s.withSettings { s.settings with joinWait := v }
  | .markInterval => (markIntervalValue x).map fun v => s.withSettings { s.settings with markInterval := v }
  | .trackHorizon =>
    (rangeValue 1024 4194303 22 x).map fun v => s.withSettings { s.settings with trackHorizon := v }
  | .claimHorizon =>
    (rangeValue 256 4194303 22 x).map fun v => s.withSettings { s.settings with claimHorizon := v }
  | .attnThreshold => (rangeValue 1 32 6 x).map fun v => s.withSettings { s.settings with attnThreshold := v }
  | .sensorMode n => some (s.setSensorSettings n ((s.settings.sensors.get n).writeMode x))
  | .sensorGap n =>
    (rangeValue 0 65535 16 x).map fun v => s.setSensorSettings n { s.settings.sensors.get n with gap := v }
  | .templateOrigins t => some (s.setTemplate t { s.template t with origins := x })
  | .templateSelect t => ((s.template t).writeSelect x).map fun c => s.setTemplate t c
  | .templateTiming t => ((s.template t).writeTiming x).map fun c => s.setTemplate t c
  | .templateWindow t => ((s.template t).writeWindow x).map fun c => s.setTemplate t c
  | .channelSettings c => (ChannelSettings.ofWord x).map fun v => s.setChannelSettings c v
  | .formShape c slot => (shapeFields x).map fun f => s.writeForm c slot f
  | .formWidths c slot => (widthsFields x).map fun f => s.writeForm c slot f
  | .formCap c slot => (capField x).map fun f => s.writeForm c slot f
  | .void => none

/-- The write that passed the class and state checks (R185 steps 4 and 5). -/
def Station.writeItem (i : ConfigItem) (x : Word) (s : Station) : Station :=
  match s.takeItem i x with
  | none => s.portAnswers .refusedRange 0
  | some t => t.portAnswers .ok 0

/-- A configuration write (R185). -/
def Station.configWrite (number : BitVec 8) (x : Word) (s : Station) : Station :=
  match (itemOf number).itemClass with
  | .void => s.portAnswers .refusedVoid 0
  | .fixed => s.portAnswers .refusedFixed 0
  | .locked => if s.ctl.state = .halted then s.writeItem (itemOf number) x else s.portAnswers .refusedState 0
  | .live => s.writeItem (itemOf number) x

/-- A configuration read (R185). -/
def Station.configRead (number : BitVec 8) (s : Station) : Station :=
  s.portAnswers (if (itemOf number).itemClass = .void then .refusedVoid else .ok) (s.itemWord (itemOf number))

/-! ## Device reset (R64, R189) -/

/-- The levels that stand at the inputs now, as last read (R4, R67, R142; log 7). -/
def Station.presentLevels (s : Station) : InputLevels :=
  { enc := s.pins.enc, sensors := s.sense.inputs.map SensorInput.level, aux := s.pins.aux }

/-- A device reset that ends with the given levels at the inputs (R64). -/
def Station.deviceReset (levels : InputLevels) (s : Station) : Station := Station.resetAt levels s.ties

/-- A write of DEVICE_RESET (R189). -/
def Station.writeDeviceReset (x : Word) (s : Station) : Station :=
  if x = Config.resetCode then s.deviceReset s.presentLevels else s.portAnswers .refusedRange 0

/-! ## Registers (R178, R182) -/

/-- A TABLE_SEL write that names a collection (R182). -/
def Station.loadRecord (c : Collection) (index : BitVec 8) (s : Station) : Station :=
  { s with port.sel := { collection := c, index := index }, port.record := s.recordAt c index.toNat }

/-- A write of TABLE_SEL (R182). -/
def Station.writeTableSel (x : Word) (s : Station) : Station :=
  match Collection.ofCode (bitsOf 0 3 x) with
  | none => s.portAnswers .refusedRange 0
  | some c => (s.loadRecord c (bitsOf 8 8 x)).portAnswers .ok 0

/-- A register write by number (R178). -/
def Station.registerWrite (number : BitVec 8) (x : Word) (s : Station) : Station :=
  match number.toNat with
  | 0 => s.portAnswers .refusedFixed 0
  | 1 => s.portAnswers .refusedFixed 0
  | 2 => s.portAnswers .refusedFixed 0
  | 3 => s.commandWrite (bitsOf 0 8 x)
  | 4 => { s with port.args.r0 := x }.portAnswers .ok 0
  | 5 => { s with port.args.r1 := x }.portAnswers .ok 0
  | 6 => { s with port.args.r2 := x }.portAnswers .ok 0
  | 7 => { s with port.args.r3 := x }.portAnswers .ok 0
  | 8 => s.portAnswers .refusedFixed 0
  | 9 => s.writeTableSel x
  | 10 => s.portAnswers .refusedFixed 0
  | 11 => s.portAnswers .refusedFixed 0
  | 12 => s.portAnswers .refusedFixed 0
  | 13 => s.portAnswers .refusedFixed 0
  | 14 => s.portAnswers .refusedFixed 0
  | 15 => s.writeDeviceReset x
  | _ => s.portAnswers .refusedVoid 0

/-- A register read leaves the last access result as it stands (R177). -/
def Station.registerRead (number : BitVec 8) (s : Station) : Station :=
  { s with port.miso := s.registerWord number }

/-- A complete transaction by its type byte (R175). -/
def Station.transaction (type number : BitVec 8) (x : Word) (s : Station) : Station :=
  match type.toNat with
  | 0 => s.registerRead number
  | 1 => s.registerWrite number x
  | 2 => s.configRead number
  | 3 => s.configWrite number x
  | _ => s.portAnswers .refusedVoid 0

/-! ## Meanings -/

/-- TABLE_SEL (R182). -/
def execTableSel (word : Word) (s : State) : Host.Outcome State Fault Refusal := s.advance (Station.writeTableSel word)

/-- REGISTER_WRITE (R177, R178). A write of a register with a behaviour of its own, which is not this row's, has that
behaviour (log 16). -/
def execRegisterWrite (number : BitVec 8) (word : Word) (s : State) : Host.Outcome State Fault Refusal :=
  s.advance (Station.registerWrite number word)

/-- CONFIG_READ (R185). -/
def execConfigRead (item : BitVec 8) (s : State) : Host.Outcome State Fault Refusal :=
  s.advance (Station.configRead item)

/-- CONFIG_WRITE (R185). -/
def execConfigWrite (item : BitVec 8) (word : Word) (s : State) : Host.Outcome State Fault Refusal :=
  s.advance (Station.configWrite item word)

/-- VOID_TRANSACTION (R175). A type byte of 00h to 03h, which is not this row's, is the transaction it names
(log 16). -/
def execVoidTransaction (type number : BitVec 8) (word : Word) (s : State) : Host.Outcome State Fault Refusal :=
  s.advance (Station.transaction type number word)

/-- DEVICE_RESET (R64). -/
def execDeviceReset (levels : InputLevels) (s : State) : Host.Outcome State Fault Refusal :=
  s.advance (Station.deviceReset levels)

/-- DEVICE_RESET_WRITE (R189). -/
def execDeviceResetWrite (word : Word) (s : State) : Host.Outcome State Fault Refusal :=
  s.advance (Station.writeDeviceReset word)

end Sys2Proof.Machine
end

