-- ==== Sys2Proof/Machine/Dispatch.lean ====
section
/-! DEFINITION. One arm per command: the meaning that exec calls. -/

namespace Sys2Proof.Machine

/-- The effect of a command on everything but the queue of waiting commands. -/
def exec (i : Instr) (s : State) : Host.Outcome State Fault Refusal :=
  match i with
  | .encoderCount levels => Sys2Proof.Machine.execEncoderCount levels s
  | .startBit => Sys2Proof.Machine.execStartBit s
  | .frameStart => Sys2Proof.Machine.execFrameStart s
  | .lostArbitration => Sys2Proof.Machine.execLostArbitration s
  | .bitClash => Sys2Proof.Machine.execBitClash s
  | .frameFault levels => Sys2Proof.Machine.execFrameFault levels s
  | .frameRejected => Sys2Proof.Machine.execFrameRejected s
  | .failedAttempt => Sys2Proof.Machine.execFailedAttempt s
  | .frameTake frame => Sys2Proof.Machine.execFrameTake frame s
  | .markTimerExpiry => Sys2Proof.Machine.execMarkTimerExpiry s
  | .joinTimeout => Sys2Proof.Machine.execJoinTimeout s
  | .sensorInputChange sensor level => Sys2Proof.Machine.execSensorInputChange sensor level s
  | .auxInputChange input level => Sys2Proof.Machine.execAuxInputChange input level s
  | .delayExpiry channel => Sys2Proof.Machine.execDelayExpiry channel s
  | .highWidthExpiry channel => Sys2Proof.Machine.execHighWidthExpiry channel s
  | .lowWidthExpiry channel => Sys2Proof.Machine.execLowWidthExpiry channel s
  | .holdCapExpiry channel => Sys2Proof.Machine.execHoldCapExpiry channel s
  | .start => Sys2Proof.Machine.execStart s
  | .stop => Sys2Proof.Machine.execStop s
  | .resume => Sys2Proof.Machine.execResume s
  | .postSight => Sys2Proof.Machine.execPostSight s
  | .postVerdict => Sys2Proof.Machine.execPostVerdict s
  | .retireItem => Sys2Proof.Machine.execRetireItem s
  | .dropItem => Sys2Proof.Machine.execDropItem s
  | .forceFire => Sys2Proof.Machine.execForceFire s
  | .commitForm => Sys2Proof.Machine.execCommitForm s
  | .popEvent => Sys2Proof.Machine.execPopEvent s
  | .unassignedCommand code => Sys2Proof.Machine.execUnassignedCommand code s
  | .tableSel word => Sys2Proof.Machine.execTableSel word s
  | .registerWrite number word => Sys2Proof.Machine.execRegisterWrite number word s
  | .configRead item => Sys2Proof.Machine.execConfigRead item s
  | .configWrite item word => Sys2Proof.Machine.execConfigWrite item word s
  | .voidTransaction type number word => Sys2Proof.Machine.execVoidTransaction type number word s
  | .deviceReset levels => Sys2Proof.Machine.execDeviceReset levels s
  | .deviceResetWrite word => Sys2Proof.Machine.execDeviceResetWrite word s
  | .idleGap => Sys2Proof.Machine.execIdleGap s

end Sys2Proof.Machine
end

