-- ==== Sys2Proof/Machine/Timebase.lean ====
section
/-! DEFINITION. One period of the 1 µs timebase: the timers and the phases of the running sequences count down, and
those that reach their end put their expiry into the queue (R42, R55, R147; log 2). -/

namespace Sys2Proof.Machine

/-- A timer counts down by one period (R42, R55). -/
def Timer.tick : Timer → Timer
  | .stopped => .stopped
  | .running n => .running (n - 1)

/-- A timer has run down. -/
def Timer.due : Timer → Bool
  | .stopped => false
  | .running n => n == 0

/-- The phase of a running sequence counts down by one period (R147). -/
def Channel.tick (c : Channel) : Channel := { c with run := c.run.map (fun r => { r with left := r.left - 1 }) }

/-- All timers and phases count down by one period, and nothing falls together with an earlier take any more (R48;
log 24). -/
def Station.tick (s : Station) : Station :=
  { s with link.mark := s.link.mark.tick, link.ownTaken := false, ctl.join := s.ctl.join.tick, channels := s.channels.map Channel.tick }

/-- The expiry of a phase (R150 to R154). -/
def Phase.expiry (c : Fin 4) : Phase → Instr
  | .delay => .delayExpiry c
  | .high => .highWidthExpiry c
  | .low => .lowWidthExpiry c
  | .hold => .holdCapExpiry c

/-- The expiry that a channel's phase has come to, if any. -/
def Station.phaseDue (s : Station) (c : Fin 4) : Option Instr :=
  match (s.chan c).run with
  | none => none
  | some r => if r.left = 0 then some (r.phase.expiry c) else none

/-- The expiries that have come due, each with a number: the mark timer, the join timer, OUT0 to OUT3. -/
def Station.dueCommands (s : Station) : List (Nat × Instr) :=
  (if s.link.mark.due then [(0, Instr.markTimerExpiry)] else []) ++
    (if s.ctl.join.due then [(1, Instr.joinTimeout)] else []) ++
    (List.finRange 4).filterMap (fun c => (s.phaseDue c).map (fun i => (2 + c.val, i)))

/-- One period passes on an empty queue. Expiries that fall in one period are queued in an order the spec leaves open
(log 5). -/
def State.idlePeriod (s : State) : State :=
  { s.tick.noteChoice s.tick.dueCommands with
    pending := (s.tick.chosenOrder Prod.fst s.tick.dueCommands).map Prod.snd }

end Sys2Proof.Machine
end

