-- ==== Sys2Proof/Machine/Step.lean ====
section
/-! DEFINITION. One step: the command at the front of the queue or, on an empty queue, one period of the timebase. -/

namespace Sys2Proof.Machine

/-- One step: the front command acts on the machine with the queue's rest; an empty queue lets 1 µs pass (log 2). -/
def step (s : State) : Host.Outcome State Fault Refusal :=
  match s.pending with
  | [] => .next s.idlePeriod
  | c :: rest => exec c { s with pending := rest }

/-- The command a word spells is put at the front of the queue; no word spells one (log 19). -/
def State.withFetchWord (s : State) (nbits w : Nat) : State :=
  match decodeTableWord nbits w with
  | none => s
  | some c => { s with pending := c :: s.pending }

end Sys2Proof.Machine
end

