-- ==== Sys2Proof/Machine/Transactions.lean ====
section
/-! DEFINITION. What the controller sends in one low period of CSn: the six bytes of a transaction and the command they
carry, a transaction that is cut or runs on, and the bytes the part drives on MISO (R175, R176; the times of the bits
are log 21's). -/

namespace Sys2Proof.Machine

/-! ## From bytes to a command (R175, R178, R180) -/

/-- The data word of bytes 2 to 5, most significant byte first (R175). -/
def dataWord (b2 b3 b4 b5 : BitVec 8) : Word := (b2 ++ b3 ++ b4 ++ b5 : BitVec 32)

/-- The command that a COMMAND write of a code carries (R180). -/
def commandOfCode (code : BitVec 8) : Instr :=
  match code.toNat with
  | 1 => .start
  | 2 => .stop
  | 3 => .resume
  | 4 => .postSight
  | 5 => .postVerdict
  | 6 => .retireItem
  | 7 => .dropItem
  | 8 => .forceFire
  | 9 => .commitForm
  | 10 => .popEvent
  | _ => .unassignedCommand code

/-- The command that a register write carries, by the register's number (R178). -/
def commandOfRegister (number : BitVec 8) (x : Word) : Instr :=
  match number.toNat with
  | 3 => commandOfCode (bitsOf 0 8 x)
  | 9 => .tableSel x
  | 15 => .deviceResetWrite x
  | _ => .registerWrite number x

/-- The command that a complete transaction carries, by its type byte (R175). A register read, type 00h, has no row of
its own and goes as the transaction of its type byte (log 16). -/
def commandOfTransaction (type number : BitVec 8) (x : Word) : Instr :=
  match type.toNat with
  | 1 => commandOfRegister number x
  | 2 => .configRead number
  | 3 => .configWrite number x
  | _ => .voidTransaction type number x

/-- The command that the bytes of one low period of CSn carry: none where CSn goes high before byte 5 is complete, and
bytes after byte 5 are ignored (R175). -/
def transactionCommand : List (BitVec 8) → Option Instr
  | type :: number :: b2 :: b3 :: b4 :: b5 :: _ => some (commandOfTransaction type number (dataWord b2 b3 b4 b5))
  | [] => none
  | [_] => none
  | [_, _] => none
  | [_, _, _] => none
  | [_, _, _, _] => none
  | [_, _, _, _, _] => none

/-- The bytes of one low period of CSn reach the part: the command they carry joins the queue, and an abandoned
transaction leaves the machine as it is (R175). -/
def State.receiveBytes (bytes : List (BitVec 8)) (s : State) : State :=
  match transactionCommand bytes with
  | none => s
  | some c => { s with pending := s.pending ++ [c] }

/-! ## MISO (R175, R176) -/

/-- The word captured when byte 1 has been received: the value of the register or item read, and no word in a write or
in a void transaction (R176). -/
def Station.capturedWord (type number : BitVec 8) (s : Station) : Word :=
  match type.toNat with
  | 0 => s.registerWord number
  | 2 => s.itemWord (itemOf number)
  | _ => 0

/-- Byte `k` on MISO in a transaction whose byte 1 is received in station `s`: the captured word in bytes 2 to 5, most
significant byte first, and low before and after them (R175). -/
def Station.misoByte (type number : BitVec 8) (k : Nat) (s : Station) : BitVec 8 :=
  if 2 ≤ k ∧ k ≤ 5 then (s.capturedWord type number).extractLsb' (8 * (5 - k)) 8 else 0

end Sys2Proof.Machine
end

