-- ==== Sys2Proof/WellFormed.lean ====
section
/-! DEFINITION. Which terms of `Instr` are commands of their own row: the checks a row puts on its operands. -/

namespace Sys2Proof

/-- The registers with a behaviour of their own on a write: COMMAND, TABLE_SEL and DEVICE_RESET (R178). -/
def ownBehaviour (number : BitVec 8) : Bool := number == 3 || number == 9 || number == 15

/-- A COMMAND code that runs no command: 0 or 11..255 (R180). -/
def unassignedCode (code : BitVec 8) : Bool := code == 0 || decide (11 ≤ code.toNat)

/-- A type byte that makes the transaction void: any but 00h to 03h (R175). -/
def voidType (type : BitVec 8) : Bool := decide (4 ≤ type.toNat)

/-- Line levels that begin with an asserted level, the start bit (R25). -/
def beginsWithStartBit (levels : List Bool) : Bool := levels.head? == some false

/-- The operands are ones the command's own row of the table allows. -/
def Instr.wellFormed : Instr → Bool
  | .frameFault levels => beginsWithStartBit levels
  | .unassignedCommand code => unassignedCode code
  | .registerWrite number _ => !ownBehaviour number
  | .voidTransaction type _ _ => voidType type
  | .encoderCount _ => true
  | .startBit => true
  | .frameStart => true
  | .lostArbitration => true
  | .bitClash => true
  | .frameRejected => true
  | .failedAttempt => true
  | .frameTake _ => true
  | .markTimerExpiry => true
  | .joinTimeout => true
  | .sensorInputChange _ _ => true
  | .auxInputChange _ _ => true
  | .delayExpiry _ => true
  | .highWidthExpiry _ => true
  | .lowWidthExpiry _ => true
  | .holdCapExpiry _ => true
  | .start => true
  | .stop => true
  | .resume => true
  | .postSight => true
  | .postVerdict => true
  | .retireItem => true
  | .dropItem => true
  | .forceFire => true
  | .commitForm => true
  | .popEvent => true
  | .tableSel _ => true
  | .configRead _ => true
  | .configWrite _ _ => true
  | .deviceReset _ => true
  | .deviceResetWrite _ => true
  | .idleGap => true

end Sys2Proof
end

