-- ==== Sys2Proof/Safety.lean ====
section
/-! DEFINITION. What it means for the block to go on, and the invariants of the LT-320 that the spec states of its
records and collections. -/

namespace Sys2Proof.Machine

/-- The state after a step or a command, where there is one. -/
def nextOf (o : Host.Outcome State Fault Refusal) : Option State :=
  match o with
  | .next s => some s
  | .fault _ => none
  | .refused _ => none

/-- The machine goes on from a state: its step gives a next state (Chapter 10: "Refusals do not stop the part"). -/
def State.goesOn (s : State) : Prop := ∃ t, step s = .next t

/-- An invariant of the station that every step of the machine keeps. -/
def KeptByEveryStep (Inv : Station → Prop) : Prop := ∀ s t : State, Inv s.toStation → step s = .next t → Inv t.toStation

/-! ## Capacities (R39, R79, R102, R120, R168) -/

/-- No collection holds more than its capacity. -/
def Station.WithinCapacities (s : Station) : Prop :=
  s.track.length ≤ Config.trackCapacity ∧ s.agenda.length ≤ Config.agendaCapacity ∧
    s.claims.length ≤ Config.claimsCapacity ∧ s.link.txq.length ≤ Config.txqCapacity ∧
    s.events.length ≤ Config.eventCapacity

/-! ## Station control (R22, R38, R42, R45, R49, R55, R56) -/

/-- SETTLING is the station state or the resume state (R56). -/
def StationControl.settlingSomewhere (c : StationControl) : Prop :=
  c.state = .settling ∨ c.resume = some .settling

/-- The resume state is present exactly in DRIFTED and MUTE, the suspect record exactly in DRIFTED, the settle start
position exactly while SETTLING is the station state or the resume state, the join timer runs exactly in JOINING, the
mark timer exactly in SETTLING and ACTIVE with a mark interval, and the good-frame run counts in MUTE alone. -/
def Station.ControlConsistent (s : Station) : Prop :=
  (s.ctl.resume.isSome = true ↔ s.ctl.state = .drifted ∨ s.ctl.state = .mute) ∧
    (s.pos.suspect.isSome = true ↔ s.ctl.state = .drifted) ∧
    (s.ctl.settleStart.isSome = true → s.ctl.settlingSomewhere) ∧
    (s.ctl.settlingSomewhere → s.ctl.settleStart.isSome = true) ∧
    (s.ctl.join ≠ .stopped ↔ s.ctl.state = .joining) ∧
    (s.link.mark ≠ .stopped ↔ s.ctl.state.inService = true ∧ s.settings.markInterval ≠ 0) ∧
    (s.link.goodRun ≠ 0 → s.ctl.state = .mute)

/-- The counts of failures and of good frames, and the attempt counts, keep to their ranges (R38, R39, R45). -/
def Station.LinkCountsInRange (s : Station) : Prop :=
  s.link.fails < Config.failuresToMute ∧ s.link.goodRun < Config.goodFramesToLeaveMute ∧
    ∀ e ∈ s.link.txq, e.attempts < Config.attemptsPerFrame

/-- The prescale sub-count holds a value in 0..prescale - 1 (R5). -/
def Station.SubCountInRange (s : Station) : Prop := s.pos.sub < s.settings.prescale.counts

/-- In HALTED and JOINING the track table, the agenda, the claims table and the transmit queue are empty, and so is the
match register (R41, R50, R80, R103). -/
def Station.EmptyOutOfService (s : Station) : Prop :=
  s.ctl.state = .halted ∨ s.ctl.state = .joining →
    s.track = [] ∧ s.agenda = [] ∧ s.claims = [] ∧ s.link.txq = [] ∧ s.pos.matchReg = none

/-! ## The line (R23, R25, R30, R39, R45, R46) -/

/-- Only the head can be in flight, and then the station is in SETTLING or ACTIVE, decodes no other frame and drives
its own. An idle line carries no frame. In HALTED the station leaves the line released, and in MUTE it has driven
nothing since the break, if any, of the bit clash that took it there. -/
def Station.LineConsistent (s : Station) : Prop :=
  (∀ e ∈ s.link.txq.tail, e.inFlight = false) ∧
    (s.headInFlight = true → s.ctl.state.inService = true ∧ s.link.receiving = false) ∧
    (s.headInFlight = true ↔ s.link.drive = .frame) ∧
    (s.link.idle = true → s.link.receiving = false ∧ s.headInFlight = false) ∧
    (s.ctl.state = .halted → s.link.drive = .released) ∧
    (s.ctl.state = .mute → s.link.drive = .released ∨ s.link.drive = .breaks)

/-! ## The track table (R78, R79) -/

/-- No two items with the same tag, and a verdict source present exactly when the verdict is PASS or REJECT. -/
def Station.TrackConsistent (s : Station) : Prop :=
  s.track.Pairwise (fun i j => i.tag ≠ j.tag) ∧
    ∀ i ∈ s.track, (i.source.isSome = true ↔ i.verdict ≠ .undecided)

/-! ## The agenda (R12, R102) -/

/-- Every fire position is ahead of the position, every entry names an item in the track table, the entries stand in
the order of their distances and, at one fire position, of their templates, and the match register holds the head's
fire position. -/
def Station.AgendaConsistent (s : Station) : Prop :=
  (∀ e ∈ s.agenda, ahead e.fire s.pos.count = true ∧ ∃ i ∈ s.track, i.tag = e.item) ∧
    s.agenda.Pairwise (fun e f => dist e.fire s.pos.count ≤ dist f.fire s.pos.count ∧
      (e.fire = f.fire → e.template ≤ f.template)) ∧
    s.pos.matchReg = s.agenda.head?.map Entry.fire

/-! ## The claims table (R119, R120) -/

/-- A position lies in a claim's window: from the start up to, but not including, the end. -/
def Claim.covers (c : Claim) (p : Pos) : Prop := dist p c.start < c.length.toNat

/-- No two claims with the same tag, and no position in the windows of two claims of one group. -/
def Station.ClaimsConsistent (s : Station) : Prop :=
  s.claims.Pairwise (fun c d => c.tag ≠ d.tag ∧ (c.group = d.group → ∀ p, ¬(c.covers p ∧ d.covers p)))

/-! ## Output channels (R144, R147) -/

/-- A form's fields lie in their ranges (R144). -/
def Form.InRange (f : Form) : Prop := f.high ≠ 0 ∧ f.low ≠ 0 ∧ f.burst ≠ 0

/-- A run record's fields lie in their ranges, LOW belongs to BURST and HOLD to HELD, and pulses remain in a BURST alone
(R147, R151 to R153). -/
def Run.InRange (r : Run) : Prop :=
  r.pulses ≤ 255 ∧ r.left ≤ 65535 ∧ r.form.high ≠ 0 ∧ r.form.low ≠ 0 ∧ (r.phase = .low → r.form.kind = .burst) ∧
    (r.phase = .hold → r.form.kind = .held ∧ r.form.cap ≠ 0) ∧ (r.pulses ≠ 0 → r.form.kind = .burst)

/-- All forms, and the run record where there is one, are in range. -/
def Channel.InRange (c : Channel) : Prop :=
  c.slotA.live.InRange ∧ c.slotA.staged.InRange ∧ c.slotB.live.InRange ∧ c.slotB.staged.InRange ∧
    ∀ r, c.run = some r → r.InRange

/-- All four channels are in range. -/
def Station.ChannelsInRange (s : Station) : Prop := ∀ c : Fin 4, (s.chan c).InRange

/-! ## The configuration space (R185 to R187) -/

/-- Every item whose range is narrower than its field lies in its range. -/
def Settings.InRange (x : Settings) : Prop :=
  x.joinWait ≠ 0 ∧ (x.markInterval = 0 ∨ 10 ≤ x.markInterval.toNat ∧ x.markInterval.toNat ≤ 10000) ∧
    1024 ≤ x.trackHorizon.toNat ∧ 256 ≤ x.claimHorizon.toNat ∧ 1 ≤ x.attnThreshold.toNat ∧
    x.attnThreshold.toNat ≤ 32 ∧ ∀ t : Fin 16, (x.templates.get t).length ≠ 0

/-- The station's settings are in range. -/
def Station.SettingsInRange (s : Station) : Prop := s.settings.InRange

/-- The settings passed START validation, or the station is HALTED (R53, R54). -/
def Station.ValidatedInService (s : Station) : Prop := s.ctl.state = .halted ∨ s.validate = none

/-! ## Verdicts (R86) -/

/-- The item of a tag is in the table with verdict REJECT. -/
def Station.rejects (s : Station) (tag : Tag) : Prop := ∃ i ∈ s.track, i.tag = tag ∧ i.verdict = .reject

/-! ## Counts (R2, R5, R6) -/

/-- A forward count: the direction, the sub-count and, where the sub-count comes to the prescale, a forward step
(R5, R6). -/
def Station.CountedForward (s t : Station) : Prop :=
  t.pos.dir = .forward ∧
    if s.pos.sub + 1 = s.settings.prescale.counts then t.pos.sub = 0 ∧ t.pos.count = s.pos.count + 1
    else t.pos.sub = s.pos.sub + 1 ∧ t.pos.count = s.pos.count

/-- A reverse count: the direction, the sub-count and, where the sub-count was 0, a reverse step (R5, R6). -/
def Station.CountedReverse (s t : Station) : Prop :=
  t.pos.dir = .reverse ∧
    if s.pos.sub = 0 then t.pos.sub = s.settings.prescale.counts - 1 ∧ t.pos.count = s.pos.count - 1
    else t.pos.sub = s.pos.sub - 1 ∧ t.pos.count = s.pos.count

/-- The forward cycle of level pairs (ENC_A, ENC_B), from and to (R2). -/
def forwardCycle : List (EncLevels × EncLevels) :=
  [({ a := false, b := false }, { a := true, b := false }), ({ a := true, b := false }, { a := true, b := true }),
    ({ a := true, b := true }, { a := false, b := true }), ({ a := false, b := true }, { a := false, b := false })]

/-- The reverse cycle of level pairs, from and to (R2). -/
def reverseCycle : List (EncLevels × EncLevels) :=
  [({ a := false, b := false }, { a := false, b := true }), ({ a := true, b := false }, { a := false, b := false }),
    ({ a := true, b := true }, { a := true, b := false }), ({ a := false, b := true }, { a := true, b := true })]

/-- The change of the encoder lines to `new` is a forward count in the encoder mode (R2, R3; log 12). -/
def Station.CountsForward (s : Station) (new : EncLevels) : Prop :=
  match s.settings.encoderMode with
  | .quad4 => (s.pos.ref, new) ∈ forwardCycle
  | .quad1 => s.pos.ref.a = false ∧ new = { a := true, b := false }
  | .pulseDir => s.pins.enc.a = false ∧ new = { a := true, b := true }

/-- The change of the encoder lines to `new` is a reverse count in the encoder mode (R2, R3; log 12). -/
def Station.CountsReverse (s : Station) (new : EncLevels) : Prop :=
  match s.settings.encoderMode with
  | .quad4 => (s.pos.ref, new) ∈ reverseCycle
  | .quad1 => s.pos.ref.a = false ∧ new = { a := true, b := true }
  | .pulseDir => s.pins.enc.a = false ∧ new = { a := true, b := false }

/-- The decoder reference once the lines are at `new`: PULSE_DIR leaves it (R2, R4; log 12). -/
def Station.refAt (s : Station) (new : EncLevels) : EncLevels :=
  if s.settings.encoderMode = .pulseDir then s.pos.ref else new

/-- Neither station control nor the track table has anything to do when the position becomes `p` by a forward step: the
settle span is not completed, and the oldest item is within the track horizon (R7, R57, R89). -/
def Station.OnlyAgendaAt (s : Station) (p : Pos) : Prop :=
  (∀ q, s.ctl.settleStart = some q → dist p q ≠ s.settleSpan) ∧
    ∀ i, s.track.head? = some i → ahead i.sighting p = true ∨ dist p i.sighting ≤ s.settings.trackHorizon.toNat

/-- No receiver has anything to do when the position becomes `p` by a forward step: the match register does not hold
`p` either (R7, R12). -/
def Station.NothingDueAt (s : Station) (p : Pos) : Prop := s.pos.matchReg ≠ some p ∧ s.OnlyAgendaAt p

/-! ## Takes (R34) -/

/-- The station is decoding a frame that it does not send (R25, R34). -/
def Station.Decoding (s : Station) : Prop :=
  s.receiverOn = true ∧ s.headInFlight = false ∧ s.link.receiving = true

/-- The record a station adds for `fields` as things stand (R164, R168, R169). -/
def Station.eventsWith (s : Station) (fields : EventFields) : List EventRecord :=
  pushEvent { fields := fields, pos := s.pos.count, lostAfter := false } s.events

/-- The event records once a taken frame of another station has been looked at for the station's own number: with
DUP_STATION where it bears it (R44). -/
def Station.notedEvents (s : Station) (f : Frame) : List EventRecord :=
  if f.sender = s.settings.stationNumber then
    s.eventsWith { kind := .dupStation, station := some f.sender, reason := some (f.payload.kind.code.setWidth 4) }
  else s.events

/-- The STATE_CHANGE record's fields (R65, R167). -/
def stateChange (left entered : StationState) (cause : Cause) : EventFields :=
  { kind := .stateChange, value := some (8 * left.number + entered.number : Int), reason := some cause.code }

/-- The mark timer as it starts from the full interval (R42). -/
def Station.fullMark (s : Station) : Timer :=
  if s.settings.markInterval = 0 then .stopped else .running (1000 * s.settings.markInterval.toNat)

/-! ## Configuration words (R185 to R188) -/

/-- Every field of a written word lies in the range of the item (R186 to R188). -/
def ConfigItem.accepts : ConfigItem → Word → Bool
  | .identity, _ => false
  | .stationNumber, x => decide (x.toNat ≤ 31)
  | .bitRate, x => decide (x.toNat ≤ 3)
  | .encoderMode, x => decide (x.toNat ≤ 2)
  | .prescale, x => x == 1 || x == 2 || x == 4 || x == 8
  | .skewTolerance, x => decide (x.toNat ≤ 255)
  | .joinWait, x => decide (1 ≤ x.toNat) && decide (x.toNat ≤ 65535)
  | .markInterval, x => x == 0 || decide (10 ≤ x.toNat) && decide (x.toNat ≤ 10000)
  | .trackHorizon, x => decide (1024 ≤ x.toNat) && decide (x.toNat ≤ 4194303)
  | .claimHorizon, x => decide (256 ≤ x.toNat) && decide (x.toNat ≤ 4194303)
  | .attnThreshold, x => decide (1 ≤ x.toNat) && decide (x.toNat ≤ 32)
  | .sensorMode _, _ => true
  | .sensorGap _, x => decide (x.toNat ≤ 65535)
  | .templateOrigins _, _ => true
  | .templateSelect _, x => decide ((x.extractLsb' 12 3).toNat ≤ 4)
  | .templateTiming _, x => decide ((x.extractLsb' 28 4).toNat ≤ 8)
  | .templateWindow _, x => x.extractLsb' 16 16 != 0
  | .channelSettings _, x => x.extractLsb' 4 2 != 3
  | .formShape _ _, x => x.extractLsb' 16 2 != 3 && x.extractLsb' 24 8 != 0
  | .formWidths _ _, x => x.extractLsb' 0 16 != 0 && x.extractLsb' 16 16 != 0
  | .formCap _ _, x => decide (x.toNat ≤ 65535)
  | .void, _ => false

/-- The bits of an item's fields; the others read 0 (R185, R187, R188). -/
def ConfigItem.fieldMask : ConfigItem → Word
  | .sensorMode _ => 0x00000F33#32
  | .templateSelect _ => 0xFFFFF7F1#32
  | .templateTiming _ => 0xF1FFFFFF#32
  | .templateWindow _ => 0xFFFF0FFF#32
  | .channelSettings _ => 0x0000F331#32
  | .formShape _ _ => 0xFF03FFFF#32
  | .void => 0
  | .identity => 0xFFFFFFFF#32
  | .stationNumber => 0xFFFFFFFF#32
  | .bitRate => 0xFFFFFFFF#32
  | .encoderMode => 0xFFFFFFFF#32
  | .prescale => 0xFFFFFFFF#32
  | .skewTolerance => 0xFFFFFFFF#32
  | .joinWait => 0xFFFFFFFF#32
  | .markInterval => 0xFFFFFFFF#32
  | .trackHorizon => 0xFFFFFFFF#32
  | .claimHorizon => 0xFFFFFFFF#32
  | .attnThreshold => 0xFFFFFFFF#32
  | .sensorGap _ => 0xFFFFFFFF#32
  | .templateOrigins _ => 0xFFFFFFFF#32
  | .formWidths _ _ => 0xFFFFFFFF#32
  | .formCap _ _ => 0xFFFFFFFF#32

/-- The service port after a COMMAND write of `code` has run with an answer (R177, R180). -/
def ServicePort.answered (p : ServicePort) (code : BitVec 8) (result : ResultCode) (detail : BitVec 16) : ServicePort :=
  { p with access := .ok, command := code, miso := 0, result := { command := code, code := result, detail := detail } }

end Sys2Proof.Machine
end

