-- ==== Sys2Proof/Certificates/Slice0/Obligations.lean ====
section
/-! DEFINITION. The statements for the provers: what the rules of spec/ say the block does, what each command leaves,
and the invariants that every step keeps. -/

open Sys2Proof Sys2Proof.Machine

/-! ## The machine -/

/-- A step with a command at the front of the queue is that command's meaning on the machine with the queue's rest. -/
def Obligations.StepRunsTheFrontCommand : Prop :=
  ∀ (c : Instr) (rest : List Instr) (s : State), step { s with pending := c :: rest } = exec c { s with pending := rest }

/-- Every command completes with a next state and leaves the queue of waiting commands alone: refusals do not stop the
part (Chapter 10). -/
def Obligations.EveryCommandCompletes : Prop :=
  ∀ (c : Instr) (s : State), ∃ t, exec c s = .next t ∧ t.pending = s.pending

/-- On an empty queue a step is one period of the 1 µs timebase: both timers and every running phase count down, what
has come to 0 waits in the queue once, and nothing else changes but the model's mark of an own take (the model's choice of
the moment, logs 2, 5 and 24). -/
def Obligations.EmptyQueuePassesOneMicrosecond : Prop :=
  ∀ s : State, s.pending = [] →
    ∃ t, step s = .next t ∧
      t.toStation = { s.toStation with link.mark := s.link.mark.tick, link.ownTaken := false,
                                       ctl.join := s.ctl.join.tick, channels := s.channels.map Channel.tick, ties := t.ties } ∧
      t.pending.Nodup ∧
      ∀ i, i ∈ t.pending ↔
        (i = .markTimerExpiry ∧ t.link.mark = .running 0) ∨ (i = .joinTimeout ∧ t.ctl.join = .running 0) ∨
          ∃ c r, (t.chan c).run = some r ∧ r.left = 0 ∧ i = r.phase.expiry c

/-! ## Device reset (R64, R178, R185 to R189) -/

/-- DEVICE_RESET sets every piece of state to its value after device reset: the levels then present are the references
(R4, R67) and everything else is as the chapters give it. `ties` is the model's own (log 5), and the MISO word 0 is log
9's choice, and the mark `ownTaken` is the model's (log 24). -/
def Obligations.DeviceResetRestoresEverything : Prop :=
  ∀ (levels : InputLevels) (s : State), ∃ t, exec (.deviceReset levels) s = .next t ∧ t.pending = s.pending ∧
    t.ctl = { state := .halted, resume := none, join := .stopped, settleStart := none } ∧
    t.pos = { count := 0, sub := 0, dir := .forward, ref := levels.enc, capture := 0, matchReg := none,
              suspect := none } ∧
    t.link = { txq := [], fails := 0, mark := .stopped, goodRun := 0, idle := false, receiving := false,
               drive := .released, ownTaken := false } ∧
    t.pins = { enc := levels.enc, aux := levels.aux } ∧
    (∀ n : Fin 4, t.sense.inputs.get n = { level := levels.sensors.get n, last := none }) ∧
    t.sense.seq = 0 ∧ t.claimSeq = 0 ∧ t.track = [] ∧ t.agenda = [] ∧ t.claims = [] ∧ t.events = [] ∧
    (∀ c : Fin 4, t.chan c = Channel.reset ∧ t.outputPin c = false) ∧ t.attn = false ∧
    t.settings = Settings.reset ∧ t.port = ServicePort.reset ∧ t.ties = s.ties

/-- The registers and the configuration items after device reset read as the tables of R178 and R186 to R188 give. -/
def Obligations.RegistersAndItemsAfterDeviceReset : Prop :=
  ∀ (levels : InputLevels) (ties : Nat),
    (∀ n : BitVec 8, (Station.resetAt levels ties).registerWord n =
      if n = 0 then 0x03200101#32 else if n = 1 then 0x00000070#32 else 0) ∧
    (∀ n : BitVec 8, n.toNat < 16 → (Station.resetAt levels ties).itemWord (itemOf n) =
      if n = 0 then 0x03200101#32 else if n = 2 then 2 else if n = 4 then 1 else if n = 5 then 8
      else if n = 6 then 500 else if n = 7 then 200 else if n = 8 then 131072 else if n = 9 then 65536
      else if n = 10 then 1 else 0) ∧
    (∀ n : Fin 4, (Station.resetAt levels ties).itemWord (itemOf (BitVec.ofNat 8 (16 + 4 * n.val))) = 0 ∧
      (Station.resetAt levels ties).itemWord (itemOf (BitVec.ofNat 8 (17 + 4 * n.val))) = 64) ∧
    (∀ t : Fin 16, (Station.resetAt levels ties).itemWord (itemOf (BitVec.ofNat 8 (32 + 4 * t.val))) = 0xFFFFFFFF#32 ∧
      (Station.resetAt levels ties).itemWord (itemOf (BitVec.ofNat 8 (33 + 4 * t.val))) = 0xFFFF00F0#32 ∧
      (Station.resetAt levels ties).itemWord (itemOf (BitVec.ofNat 8 (34 + 4 * t.val))) = 0 ∧
      (Station.resetAt levels ties).itemWord (itemOf (BitVec.ofNat 8 (35 + 4 * t.val))) = 0x00010000#32) ∧
    (∀ c : Fin 4, (Station.resetAt levels ties).itemWord (itemOf (BitVec.ofNat 8 (96 + 8 * c.val))) = 0 ∧
      (∀ k ∈ [1, 4], (Station.resetAt levels ties).itemWord (itemOf (BitVec.ofNat 8 (96 + 8 * c.val + k))) =
        0x01000000#32) ∧
      (∀ k ∈ [2, 5], (Station.resetAt levels ties).itemWord (itemOf (BitVec.ofNat 8 (96 + 8 * c.val + k))) =
        0x00640064#32) ∧
      ∀ k ∈ [3, 6], (Station.resetAt levels ties).itemWord (itemOf (BitVec.ofNat 8 (96 + 8 * c.val + k))) = 0)

/-- DEVICE_RESET_WRITE: the reset code resets the device, with the levels that stand at the inputs as the references
(log 7); any other word is refused and resets nothing. -/
def Obligations.ResetCodeResetsTheDevice : Prop :=
  (∀ s : State, exec (.deviceResetWrite 0x000000A5#32) s = .next { s with toStation := Station.resetAt s.presentLevels s.ties }) ∧
    (∀ (s : State) (x : Word), x ≠ 0x000000A5#32 →
      exec (.deviceResetWrite x) s = .next { s with port.access := .refusedRange, port.miso := 0 }) ∧
    ∀ s : Station, s.registerWord 15 = 0

/-! ## The encoder (Chapter 1) -/

/-- ENCODER_COUNT in each encoder mode: which changes of the lines are a forward count, a reverse count or no count, what
a count does to the direction, the sub-count and the position, and what the decoder keeps as its reference. A count that
makes no step changes nothing but the lines, the reference, the direction and the sub-count (R2, R3, R5 to R7; PULSE_DIR's
use of the pin's old level is log 12). -/
def Obligations.LevelChangesMakeCounts : Prop :=
  ∀ (s : State) (new : EncLevels), ∃ t, exec (.encoderCount new) s = .next t ∧ t.pins.enc = new ∧
    t.pos.ref = (if s.settings.encoderMode = .pulseDir then s.pos.ref else new) ∧
    (s.settings.encoderMode = .quad4 →
      ((s.pos.ref, new) ∈ forwardCycle → s.toStation.CountedForward t.toStation) ∧
      ((s.pos.ref, new) ∈ reverseCycle → s.toStation.CountedReverse t.toStation) ∧
      ((s.pos.ref, new) ∉ forwardCycle → (s.pos.ref, new) ∉ reverseCycle →
        t = { s with pins.enc := new, pos.ref := new })) ∧
    (s.settings.encoderMode = .quad1 →
      (s.pos.ref.a = false → new = { a := true, b := false } → s.toStation.CountedForward t.toStation) ∧
      (s.pos.ref.a = false → new = { a := true, b := true } → s.toStation.CountedReverse t.toStation) ∧
      (s.pos.ref.a = true ∨ new.a = false → t = { s with pins.enc := new, pos.ref := new })) ∧
    (s.settings.encoderMode = .pulseDir →
      (s.pins.enc.a = false → new = { a := true, b := true } → s.toStation.CountedForward t.toStation) ∧
      (s.pins.enc.a = false → new = { a := true, b := false } → s.toStation.CountedReverse t.toStation) ∧
      (s.pins.enc.a = true ∨ new.a = false → t = { s with pins.enc := new })) ∧
    (s.CountsForward new → s.pos.sub + 1 ≠ s.settings.prescale.counts →
      t = { s with pins.enc := new, pos.ref := s.refAt new, pos.dir := .forward, pos.sub := s.pos.sub + 1 }) ∧
    (s.CountsReverse new → s.pos.sub ≠ 0 →
      t = { s with pins.enc := new, pos.ref := s.refAt new, pos.dir := .reverse, pos.sub := s.pos.sub - 1 })

/-- What ENCODER_COUNT leaves: the auxiliary levels, the capture, the suspect record, the sensor block, the claims table
and its counter, the port, the settings, the link controller but for its queue, and the join timer; and no station state
but SETTLING is left. -/
def Obligations.EncoderCountFrame : Prop :=
  ∀ (s t : State) (new : EncLevels), exec (.encoderCount new) s = .next t →
    t.pending = s.pending ∧ t.pins.aux = s.pins.aux ∧ t.pos.capture = s.pos.capture ∧ t.pos.suspect = s.pos.suspect ∧
      t.sense = s.sense ∧ t.claims = s.claims ∧ t.claimSeq = s.claimSeq ∧ t.port = s.port ∧ t.settings = s.settings ∧
      t.link = { s.link with txq := t.link.txq } ∧ t.ctl.join = s.ctl.join ∧
      (t.ctl.state = s.ctl.state ∨ s.ctl.state = .settling ∧ t.ctl.state = .active)

/-- In every encoder mode, a step moves the position by one and reaches its receivers (R1 to R8; log 12). A forward step is handled by those of the
track table, the agenda and station control that have something to do at the new position, in an order the spec leaves
open (log 5): the oldest items beyond the track horizon are removed one after another (R89), a match is taken (R12), and
the settle span that is completed takes SETTLING, or the resume state SETTLING, to ACTIVE (R57, R58). At a reverse step,
as at an alignment (R13), the entries that are no longer ahead are handled as late, in agenda order (R8, R14, R113). -/
def Obligations.StepsReachTheirReceivers : Prop :=
  (∀ (s : State) (new : EncLevels) (m : Station), s.CountsForward new → s.pos.sub + 1 = s.settings.prescale.counts →
    m = { s.toStation with pins.enc := new, pos.ref := s.refAt new, pos.dir := .forward,
                           pos.sub := 0, pos.count := s.pos.count + 1 } →
    (∃ (rs : List StepReceiver) (k : Nat), rs.Perm ([StepReceiver.track, .agenda, .control].filter m.concerns) ∧
      exec (.encoderCount new) s =
        .next { s with toStation := rs.foldl (fun u r => r.handle u) { m with ties := k } }) ∧
    (s.NothingDueAt (s.pos.count + 1) →
      exec (.encoderCount new) s = .next { s with toStation := m }) ∧
    (s.pos.matchReg ≠ some (s.pos.count + 1) → (∀ i, s.track.head? = some i → m.beyondHorizon i = false) →
      ∀ q, s.ctl.settleStart = some q →
        dist (s.pos.count + 1) q = s.settings.claimHorizon.toNat + 2 * s.settings.skewTolerance.toNat →
        (s.ctl.state = .settling →
          exec (.encoderCount new) s =
            .next { s with toStation := { m with
              ctl.state := .active
              ctl.settleStart := none
              events := m.eventsWith (stateChange .settling .active .settled) } }) ∧
        (s.ctl.state = .drifted ∨ s.ctl.state = .mute → s.ctl.resume = some .settling →
          exec (.encoderCount new) s =
            .next { s with toStation := { m with ctl.settleStart := none, ctl.resume := some .active } })) ∧
    (s.pos.matchReg ≠ some (s.pos.count + 1) →
      (∀ q, s.ctl.settleStart = some q →
        dist (s.pos.count + 1) q ≠ s.settings.claimHorizon.toNat + 2 * s.settings.skewTolerance.toNat) →
      exec (.encoderCount new) s =
        .next { s with
          toStation := (m.track.takeWhile m.beyondHorizon).foldl (fun u i => u.removeItem i.tag) m })) ∧
  (∀ s : Station,
    (∀ i, s.beyondHorizon i = true ↔
      ahead i.sighting s.pos.count = false ∧ s.settings.trackHorizon.toNat < dist s.pos.count i.sighting) ∧
    (s.concerns .track = true ↔ ∃ i, s.track.head? = some i ∧ s.beyondHorizon i = true) ∧
    (s.concerns .agenda = true ↔ s.pos.matchReg = some s.pos.count) ∧
    (s.concerns .control = true ↔ ∃ q, s.ctl.settleStart = some q ∧
      dist s.pos.count q = s.settings.claimHorizon.toNat + 2 * s.settings.skewTolerance.toNat) ∧
    StepReceiver.track.handle s = (s.track.takeWhile s.beyondHorizon).foldl (fun u i => u.removeItem i.tag) s ∧
    (s.concerns .agenda = true → StepReceiver.agenda.handle s = s.takeMatch) ∧
    (s.concerns .control = true →
      (s.ctl.state = .settling → StepReceiver.control.handle s =
        { s with ctl.state := .active, ctl.settleStart := none,
                 events := s.eventsWith (stateChange .settling .active .settled) }) ∧
      (s.ctl.state ≠ .settling → s.ctl.resume = some .settling → StepReceiver.control.handle s =
        { s with ctl.settleStart := none, ctl.resume := some .active }))) ∧
  (∀ (s : State) (new : EncLevels) (m : Station), s.CountsReverse new → s.pos.sub = 0 →
    m = { s.toStation with pins.enc := new, pos.ref := s.refAt new, pos.dir := .reverse,
                           pos.sub := s.settings.prescale.counts - 1, pos.count := s.pos.count - 1 } →
    exec (.encoderCount new) s = .next { s with toStation := m.lateSweep } ∧
    (s.pos.matchReg = s.agenda.head?.map Entry.fire → (∀ e ∈ s.agenda, ahead e.fire (s.pos.count - 1) = true) →
      exec (.encoderCount new) s = .next { s with toStation := m })) ∧
  (∀ (s : Station) (k : Pos), s.align k =
    ({ s with
        pos.count := s.pos.count + k
        pos.sub := 0
        link.txq := s.link.txq.map (TxEntry.align k)
        sense.inputs := s.sense.inputs.map (fun i => { i with last := i.last.map (· + k) })
        ctl.settleStart := s.ctl.settleStart.map (· + k) } : Station).lateSweep) ∧
  ∀ s u : Station,
    u = (s.agenda.filter (fun e => !ahead e.fire s.pos.count)).foldl
      (fun v e => (({ v with agenda := v.agenda.erase e }).releaseClaim e).handleLate e.template e.item
        (dist s.pos.count e.fire)) s →
    u.agenda = s.agenda.filter (fun e => ahead e.fire s.pos.count) ∧
      s.lateSweep = { u with pos.matchReg := u.agenda.head?.map Entry.fire }

/-- A match takes every entry at the matched position in agenda order, each removed, given its claim release and judged
whole before the next, and then loads the match register; in every encoder mode, a forward step at which the other receivers have nothing to do
is that (R12, R110). In particular, a forward step to the fire position of the only entry fires it: an unwindowed entry,
or a windowed one that is HELD, whose verdict condition is satisfied, outside DRIFTED, on an IDLE channel that is not
inhibited (R111, R114, R115, R148, R149). -/
def Obligations.EntriesAreTakenAtTheirPosition : Prop :=
  (∀ s u : Station,
    u = (s.agenda.filter (fun e => e.fire == s.pos.count)).foldl
      (fun v e => (({ v with agenda := v.agenda.erase e }).releaseClaim e).judgeMatched e) s →
    u.agenda = s.agenda.filter (fun e => e.fire != s.pos.count) ∧
      s.takeMatch = { u with pos.matchReg := u.agenda.head?.map Entry.fire }) ∧
  (∀ (s : State) (new : EncLevels), s.CountsForward new → s.pos.sub + 1 = s.settings.prescale.counts →
    s.OnlyAgendaAt (s.pos.count + 1) → s.pos.matchReg = some (s.pos.count + 1) →
    exec (.encoderCount new) s =
      .next { s with
        toStation := ({ s.toStation with pins.enc := new, pos.ref := s.refAt new,
                                         pos.dir := .forward, pos.sub := 0,
                                         pos.count := s.pos.count + 1 }).takeMatch }) ∧
  ∀ (s : State) (new : EncLevels) (e : Entry), s.CountsForward new → s.pos.sub + 1 = s.settings.prescale.counts →
    s.OnlyAgendaAt (s.pos.count + 1) →
    s.agenda = [e] → s.pos.matchReg = some e.fire → e.fire = s.pos.count + 1 → s.ctl.state ≠ .drifted →
    (s.template e.template).condition.satisfied (s.verdictOf e.item) = true → (s.template e.template).report = false →
    ((s.template e.template).windowed = false ∧ e.claim = .none ∨ ∃ q, e.claim = .held q) →
    s.inhibits (s.template e.template).channel = false → (s.chan (s.template e.template).channel).run = none →
    exec (.encoderCount new) s =
      .next { s with
        pins.enc := new
        pos.ref := s.refAt new
        pos.dir := .forward
        pos.sub := 0
        pos.count := s.pos.count + 1
        pos.matchReg := none
        agenda := []
        channels := s.channels.set (s.template e.template).channel.val
          ((s.chan (s.template e.template).channel).load (s.template e.template).slot .agenda (some e.item))
          (s.template e.template).channel.isLt }

/-- An entry taken at a match is judged in the order of R111: DRIFTED, verdict, window, fire. The verdict is the item's
as it stands in the track table, and the conditions are satisfied as the table of R100 shows. -/
def Obligations.MatchedEntriesAreJudgedInOrder : Prop :=
  (∀ v : Verdict,
    Condition.any.satisfied v = true ∧ (Condition.pass.satisfied v = true ↔ v = .pass) ∧
      (Condition.reject.satisfied v = true ↔ v = .reject) ∧
      (Condition.notReject.satisfied v = true ↔ v = .undecided ∨ v = .pass) ∧
      (Condition.undecided.satisfied v = true ↔ v = .undecided)) ∧
  (∀ (s : Station) (i : Item), i ∈ s.track → s.track.Pairwise (fun j k => j.tag ≠ k.tag) →
    s.verdictOf i.tag = i.verdict) ∧
  ∀ (s : Station) (e : Entry),
    (s.ctl.state = .drifted → s.judgeMatched e =
      s.addRecord { kind := .skippedDrift, item := some e.item, template := some e.template }) ∧
    (s.ctl.state ≠ .drifted → (s.template e.template).condition.satisfied (s.verdictOf e.item) = false →
      s.judgeMatched e = s) ∧
    (s.ctl.state ≠ .drifted → (s.template e.template).condition.satisfied (s.verdictOf e.item) = true →
      (s.template e.template).windowed = true → (∀ q, e.claim ≠ .held q) → e.claim ≠ .none →
      s.judgeMatched e =
        s.addRecord { kind := .noWindow, item := some e.item, template := some e.template,
                      reason := some (if e.claim = .lost then 2 else 1) }) ∧
    (s.ctl.state ≠ .drifted → (s.template e.template).condition.satisfied (s.verdictOf e.item) = true →
      ((s.template e.template).windowed = false ∨ ∃ q, e.claim = .held q) →
      s.judgeMatched e =
        (if (s.template e.template).report then
          s.addRecord { kind := .fired, item := some e.item, template := some e.template,
                        channel := some (s.template e.template).channel }
         else s).fireRequest (s.template e.template).channel (s.template e.template).slot .agenda (some e.item))

/-- A late entry is handled in the order of R112: drop, DRIFTED, verdict, late fire. -/
def Obligations.LateEntriesAreHandledInOrder : Prop :=
  ∀ (s : Station) (t : Fin 16) (item : Tag) (l : Nat),
    ((s.template t).windowed = true ∨ (s.template t).policy = .drop ∨ (s.template t).tolerance.toNat < l →
      s.handleLate t item l =
        s.addRecord { kind := .lateDrop, item := some item, template := some t, value := some (l : Int) }) ∧
    ((s.template t).windowed = false → (s.template t).policy = .fireLate → l ≤ (s.template t).tolerance.toNat →
      (s.ctl.state = .drifted → s.handleLate t item l =
        s.addRecord { kind := .skippedDrift, item := some item, template := some t }) ∧
      (s.ctl.state ≠ .drifted → (s.template t).condition.satisfied (s.verdictOf item) = false →
        s.handleLate t item l = s) ∧
      (s.ctl.state ≠ .drifted → (s.template t).condition.satisfied (s.verdictOf item) = true →
        s.handleLate t item l =
          (s.addRecord { kind := .lateFire, item := some item, template := some t,
                         channel := some (s.template t).channel, value := some (l : Int) }).fireRequest
            (s.template t).channel (s.template t).slot .agenda (some item)))

/-! ## TrackLink (Chapter 2) -/

/-- START_BIT, IDLE_GAP, FRAME_START and LOST_ARBITRATION: what each sets where it can happen, and that it changes
nothing where it cannot (R10, R25, R29, R30; logs 4, 11 and 24). -/
def Obligations.LineEventsBeginAndYield : Prop :=
  ∀ s : State,
    exec .startBit s = .next (if s.receiverOn = true ∧ s.link.idle = true then
      { s with pos.capture := s.pos.count, link.idle := false, link.receiving := true, link.drive := .released }
      else s) ∧
    exec .idleGap s = .next (if s.receiverOn = true ∧ s.link.receiving = false ∧ s.headInFlight = false then
      { s with link.idle := true, link.drive := .released, link.ownTaken := false } else s) ∧
    (∀ e es, s.link.txq = e :: es → (s.ctl.state = .settling ∨ s.ctl.state = .active) → s.link.idle = true →
      exec .frameStart s = .next { s with pos.capture := s.pos.count, link.txq := { e with inFlight := true } :: es,
                                          link.idle := false, link.receiving := false, link.drive := .frame }) ∧
    (s.link.txq = [] ∨ s.link.idle = false ∨ s.ctl.state ≠ .settling ∧ s.ctl.state ≠ .active →
      exec .frameStart s = .next s) ∧
    (∀ e es, s.link.txq = e :: es → e.inFlight = true →
      exec .lostArbitration s = .next { s with link.txq := { e with inFlight := false } :: es,
                                               link.receiving := true, link.drive := .released }) ∧
    (s.headInFlight = false → exec .lostArbitration s = .next s)

/-- FAILED_ATTEMPT and BIT_CLASH that are neither a frame's 4th failure nor the station's 16th: the in-flight flag is
cleared and both counts go up by one; a bit clash also sends a break and records BIT_CLASH (R31, R36, R38). -/
def Obligations.FailedAttemptsAreCounted : Prop :=
  ∀ (s : State) (e : TxEntry) (es : List TxEntry), s.link.txq = e :: es → e.inFlight = true → e.attempts < 3 →
    s.link.fails < 15 →
    exec .failedAttempt s =
      .next { s with link.txq := { e with attempts := e.attempts + 1, inFlight := false } :: es,
                     link.fails := s.link.fails + 1, link.drive := .released } ∧
    exec .bitClash s =
      .next { s with link.txq := { e with attempts := e.attempts + 1, inFlight := false } :: es,
                     link.fails := s.link.fails + 1, link.drive := .breaks,
                     events := s.eventsWith { kind := .bitClash, item := itemNamed s.settings.stationNumber e.payload,
                                              claim := claimNamed s.settings.stationNumber e.payload,
                                              reason := some (e.payload.kind.code.setWidth 4) } }

/-- The 4th failed attempt of a frame, by an asserted reject slot or by a bit clash, takes it out of the queue with
SEND_FAILED, after the BIT_CLASH of a clash (log 13); where it is a CLAIM that an entry waits for, that entry goes LOST
with WINDOW_LOST after it (R31, R37, R109). -/
def Obligations.FourthFailureDropsTheFrame : Prop :=
  ∀ (s : State) (e : TxEntry) (es : List TxEntry) (c : Instr) (d : LinkDrive) (ev : List EventRecord),
    s.link.txq = e :: es → e.inFlight = true → e.attempts = 3 → s.link.fails < 15 →
    (c = .failedAttempt ∧ d = .released ∧ ev = s.events ∨
      c = .bitClash ∧ d = .breaks ∧ ev = s.eventsWith (frameFields .bitClash s.settings.stationNumber e.payload)) →
    ((∀ q g p l, e.payload = .claim q g p l → ∀ f ∈ s.agenda, f.claim ≠ .wanted q) →
      exec c s =
        .next { s with
          link.txq := es
          link.fails := s.link.fails + 1
          link.drive := d
          events := pushEvent { fields := frameFields .sendFailed s.settings.stationNumber e.payload,
                                pos := s.pos.count, lostAfter := false } ev }) ∧
    ∀ q g p l f, e.payload = .claim q g p l → s.agenda.find? (Entry.wants q) = some f →
      exec c s =
        .next { s with
          link.txq := es
          link.fails := s.link.fails + 1
          link.drive := d
          agenda := settleFirst q .lost s.agenda
          events := pushEvent
            { fields := { kind := .windowLost, item := some f.item, template := some f.template,
                          claim := some { origin := s.settings.stationNumber, seq := q }, reason := some 3 },
              pos := s.pos.count, lostAfter := false }
            (pushEvent { fields := frameFields .sendFailed s.settings.stationNumber e.payload,
                         pos := s.pos.count, lostAfter := false } ev) }

/-- The 16th consecutive failure, by an asserted reject slot or by a bit clash, in SETTLING or ACTIVE, takes the station
to MUTE: resume state, counts 0, mark timer stopped, STATE_CHANGE, and then the queue is flushed, each entry handed back
in queue order; a frame whose 4th failure it also is has left the queue before, with SEND_FAILED and its hand-back (R31,
R37, R38, R41, R61). A flushed SIGHT records SIGHT_LOST with FLUSHED, a flushed CLAIM makes the entry that waits for it
LOST with WINDOW_LOST, and the other kinds record nothing (R74, R109). The break of a clash stays as what the station
last drove (log 11), and the order of BIT_CLASH and SEND_FAILED is log 13's. -/
def Obligations.SixteenthFailureEntersMute : Prop :=
  (∀ (s : State) (e : TxEntry) (es : List TxEntry) (c : Instr) (d : LinkDrive) (ev : List EventRecord) (m u : Station),
    s.link.txq = e :: es → e.inFlight = true → s.link.fails = 15 → (s.ctl.state = .settling ∨ s.ctl.state = .active) →
    (c = .failedAttempt ∧ d = .released ∧ ev = s.events ∨
      c = .bitClash ∧ d = .breaks ∧ ev = s.eventsWith (frameFields .bitClash s.settings.stationNumber e.payload)) →
    m = { s.toStation with
      link := { s.link with txq := [], fails := 0, mark := .stopped, goodRun := 0, drive := d }
      ctl := { s.ctl with state := .mute, resume := if s.ctl.state = .active then some .active else some .settling } } →
    u = ({ s.toStation with
      events := pushEvent { fields := frameFields .sendFailed s.settings.stationNumber e.payload,
                            pos := s.pos.count, lostAfter := false } ev }).handBack false e →
    (e.attempts < 3 →
      exec c s = .next { s with
        toStation := (e :: es).foldl (Station.handBack true)
          { m with events := pushEvent { fields := stateChange s.ctl.state .mute .sendFailures, pos := s.pos.count,
                                         lostAfter := false } ev } }) ∧
    (e.attempts = 3 →
      exec c s = .next { s with
        toStation := es.foldl (Station.handBack true)
          { m with agenda := u.agenda
                   events := pushEvent { fields := stateChange s.ctl.state .mute .sendFailures, pos := s.pos.count,
                                         lostAfter := false } u.events } }) ∧
    ∃ t, exec c s = .next t ∧ t.pending = s.pending ∧ t.ctl = m.ctl ∧ t.link = m.link ∧ t.pos = s.pos ∧
      t.pins = s.pins ∧ t.sense = s.sense ∧ t.track = s.track ∧ t.claims = s.claims ∧ t.claimSeq = s.claimSeq ∧
      t.channels = s.channels ∧ t.port = s.port ∧ t.settings = s.settings) ∧
  ∀ (s : Station) (e : TxEntry) (flushed : Bool),
    (∀ q p l c, e.payload = .sight q p l c →
      s.handBack false e = s ∧
      s.handBack true e =
        s.addRecord { kind := .sightLost, item := some { origin := s.settings.stationNumber, seq := q },
                      reason := some 2 }) ∧
    (∀ q g p l, e.payload = .claim q g p l →
      ((∀ f ∈ s.agenda, f.claim ≠ .wanted q) → s.handBack flushed e = s) ∧
      ∀ f, s.agenda.find? (Entry.wants q) = some f → s.handBack flushed e =
        { s with agenda := settleFirst q .lost s.agenda,
                 events := s.eventsWith
                   { kind := .windowLost, item := some f.item, template := some f.template,
                     claim := some { origin := s.settings.stationNumber, seq := q },
                     reason := some (if flushed then 4 else 3) } }) ∧
    (e.payload.kind ≠ .sight → e.payload.kind ≠ .claim → s.handBack flushed e = s)

/-- FRAME_FAULT and FRAME_REJECTED: a faulty frame is refused by a break or by the reject slot, by no MUTE station, and
recorded; a frame that ends without a take clears the good-frame run (R32, R33, R45). Three clauses are the model's: that
a FRAME_FAULT with the receiver off or with nothing being decoded changes nothing (log 4), that the levels are judged
whole (log 14), and that what the station last drove stays at a FRAME_REJECTED (log 11). -/
def Obligations.FaultyFramesAreRefused : Prop :=
  (∀ (s : State) (levels : List Bool) (r : FaultReason) (sender : Option Station5), s.receiverOn = true →
    s.link.receiving = true → receive levels = .fault r sender →
    exec (.frameFault levels) s =
      .next { s with link.receiving := false, link.goodRun := 0,
                     link.drive := (if s.ctl.state = .mute then LinkDrive.released
                                    else if r = .check then LinkDrive.reject else LinkDrive.breaks),
                     events := s.eventsWith { kind := .frameFault, station := sender, reason := some r.code } }) ∧
    (∀ s : State, s.receiverOn = true →
      exec .frameRejected s = .next { s with link.receiving := false, link.goodRun := 0 }) ∧
    ∀ (s : State) (levels : List Bool), s.receiverOn = false ∨ s.link.receiving = false →
      exec (.frameFault levels) s = .next s

/-- What a station sends for a frame, a receiver reads as that frame: the bits, the check and the stuffing of every
frame of every kind come back; and the levels sent never hold more than five equal levels in a row (R24, R26 to R28,
R32). -/
def Obligations.SentFramesAreReceived : Prop :=
  (∀ f : Frame, receive (frameLevels f) = .good f) ∧
    ∀ (f : Frame) (b : Bool), ¬ List.replicate 6 b <:+: frameLevels f

/-- A frame whose check field differs from the check computed over its fields is found faulty with reason CHECK and its
sender, and one whose kind field holds 5 or 6 with reason KIND and its sender, whatever follows (R27, R28, R32). A frame
goes on until its last level. Five equal levels at which a frame goes on and a sixth equal to them are SHORT, whatever
follows; so is a sent frame in which six equal levels fall while at least six of its bits are outstanding, with the sender
where all of it was sent and with none where the run falls before (R24, R32). -/
def Obligations.BrokenFramesAreFound : Prop :=
  (∀ (f : Frame) (c : BitVec 16), c ≠ crc (bodyBits f) →
    receive (stuffFrom true 0 (false :: bodyBits f ++ fieldBits c)) = .fault .check (some f.sender)) ∧
  (∀ (k : BitVec 3) (o : Station5) (rest : List Bool), k = 5 ∨ k = 6 →
    receive (stuffFrom true 0 (false :: fieldBits k ++ fieldBits o) ++ rest) = .fault .kind (some o)) ∧
  (∀ (f : Frame) (n : Nat), n < (frameLevels f).length → receive ((frameLevels f).take n) = .unfinished) ∧
  (∀ (levels : List Bool) (b : Bool) (rest : List Bool),
    receive (levels ++ List.replicate 5 b) = .unfinished →
      ∃ o, receive (levels ++ List.replicate 5 b ++ b :: rest) = .fault .short o) ∧
  (∀ rest : List Bool, receive (List.replicate 6 false ++ rest) = .fault .short none) ∧
  ∀ (f : Frame) (n : Nat) (b : Bool) (rest : List Bool), 1 ≤ n → n + 6 ≤ (frameBits f).length →
    ∃ o, receive (stuffFrom true 0 ((frameBits f).take n) ++ List.replicate 6 b ++ rest) = .fault .short o ∧
      (9 ≤ n → o = some f.sender) ∧ (n ≤ 3 → o = none)

/-- The expiry of the mark timer enqueues a MARK into an empty queue and restarts the timer, and the expiry of the join
timer takes a JOINING station to SETTLING with its own count (R17, R42, R43, R55, R56). Two points are the model's
choice: an expiry acts whatever time is left (log 3), and with the mark timer stopped, or outside JOINING, it changes
nothing (log 4). Where the mark timer's expiry and the take of an own frame come together (R48; log 24), the expiry behind
the take does not come: it changes nothing but the mark of the take. The expiry before the take enqueues no MARK, and the
take then leaves what it leaves without it. -/
def Obligations.TimersExpire : Prop :=
  ∀ s : State,
    (s.link.mark ≠ .stopped → s.link.ownTaken = false → s.link.txq = [] →
      exec .markTimerExpiry s =
        .next { s with link.txq := [{ payload := .mark, attempts := 0, origin := .link, inFlight := false }],
                       link.mark := s.fullMark }) ∧
    (s.link.mark ≠ .stopped → s.link.ownTaken = false → s.link.txq ≠ [] →
      exec .markTimerExpiry s = .next { s with link.mark := s.fullMark }) ∧
    (s.link.ownTaken = true → s.link.mark ≠ .stopped →
      exec .markTimerExpiry s = .next { s with link.ownTaken := false }) ∧
    (∀ (f : Frame) (t : State), s.receiverOn = true → s.headInFlight = true → exec (.frameTake f) s = .next t →
      t.link.ownTaken = true ∧
      exec .markTimerExpiry t =
        .next (if t.link.mark = .stopped then t else { t with link.ownTaken := false }) ∧
      ∀ u, exec .markTimerExpiry s = .next u → u.link.txq = s.link.txq ∧ exec (.frameTake f) u = .next t) ∧
    (s.link.mark = .stopped → exec .markTimerExpiry s = .next s) ∧
    (s.ctl.state = .joining →
      exec .joinTimeout s =
        .next { s with ctl.state := .settling, ctl.join := .stopped, ctl.settleStart := some s.pos.count,
                       link.mark := s.fullMark,
                       events := s.eventsWith (stateChange .joining .settling .joinTimeout) }) ∧
    (s.ctl.state ≠ .joining → exec .joinTimeout s = .next s)

/-! ## Takes (Chapters 1, 2 and 7) -/

/-- FRAME_TAKE makes the steps of R34 in their order: link bookkeeping, position, purge, kind. The station's own head is
taken with its own number and the capture as stamp (R11, R35; log 8); a frame of another station is taken where it is
being decoded; HALTED takes nothing. An own MARK is applied by the bookkeeping and the purge alone. A foreign frame that
bears this station's number is recorded with DUP_STATION and handled on (R44). The last step is by kind: a SIGHT enters
an UNDECIDED item of the frame's fields (R82), VERDICT, RETIRE, CLAIM and YIELD have their takes, a MARK has none. The
mark `ownTaken` of an own take is the model's (log 24). -/
def Obligations.TakesRunInOrder : Prop :=
  (∀ (s : Station) (f : Frame),
    (f.sender = s.settings.stationNumber → s.noteDuplicate f =
      s.addRecord { kind := .dupStation, station := some f.sender,
                    reason := some (f.payload.kind.code.setWidth 4) }) ∧
    (f.sender ≠ s.settings.stationNumber → s.noteDuplicate f = s)) ∧
  (∀ (s : Station) (own : Bool) (f : Frame),
    (∀ q p l c, f.payload = .sight q p l c → s.applyKind own f = s.takeSight f.stamp
      { tag := { origin := f.sender, seq := q }, sighting := p, lane := l, cls := c, verdict := .undecided,
        source := none }) ∧
    (∀ item v, f.payload = .verdict item v → s.applyKind own f = s.takeVerdict f.sender item v) ∧
    (∀ item, f.payload = .retire item → s.applyKind own f = s.takeRetire item) ∧
    (∀ q g p l, f.payload = .claim q g p l → s.applyKind own f = s.takeClaim own f.stamp
      { tag := { origin := f.sender, seq := q }, group := g, start := p, length := l }) ∧
    (∀ q, f.payload = .yield q → s.applyKind own f = s.takeYield { origin := f.sender, seq := q }) ∧
    (f.payload = .mark → s.applyKind own f = s)) ∧
  (∀ (s : State) (f : Frame), s.receiverOn = false → exec (.frameTake f) s = .next s) ∧
    (∀ (s : State) (f : Frame), s.headInFlight = false → s.link.receiving = false → exec (.frameTake f) s = .next s) ∧
    (∀ (s : State) (f : Frame), s.Decoding →
      exec (.frameTake f) s =
        .next { s with
          toStation := ((((({ s.toStation with link.receiving := false, link.drive := .released }).noteDuplicate f).countGoodFrame).judgePosition
            f.sender (f.stamp - s.pos.capture)).purge f.stamp).applyKind false f }) ∧
    (∀ (s : State) (f : Frame) (e : TxEntry) (es : List TxEntry), s.receiverOn = true → s.link.txq = e :: es →
      e.inFlight = true →
      exec (.frameTake f) s =
        .next { s with
          toStation := (({ s.toStation with
            link.receiving := false
            link.drive := .released
            link.txq := es
            link.fails := 0
            link.ownTaken := true
            link.mark := s.fullMark }).purge s.pos.capture).applyKind true
              { sender := s.settings.stationNumber, stamp := s.pos.capture, payload := e.payload } }) ∧
    ∀ (s : State) (f : Frame) (e : TxEntry) (es : List TxEntry), s.receiverOn = true → s.link.txq = e :: es →
      e.inFlight = true → e.payload = .mark →
      exec (.frameTake f) s =
        .next { s with link.receiving := false, link.drive := .released, link.txq := es, link.fails := 0,
                       link.ownTaken := true, link.mark := s.fullMark, claims := s.claims.filter (fun c => ahead c.finish s.pos.capture) }

/-- The take of the station's own CLAIM: entered, it makes the waiting entry HELD, or is an orphan that is recorded and
yielded; refused, it makes the waiting entry LOST with the refusal as reason, and nothing more where none waits (R132,
R133). The mark `ownTaken` of an own take is the model's (log 24). The clause of the orphan with 16 entries behind it is
R133's, and no run meets it: the head has left a queue of 16. -/
def Obligations.OwnClaimsAreHeldOrLost : Prop :=
  ∀ (s : State) (x : Frame) (e : TxEntry) (es : List TxEntry) (q : Seq8) (g : BitVec 3) (p : Pos) (l : BitVec 16)
    (c : Claim) (b : Station),
    s.receiverOn = true → s.link.txq = e :: es → e.inFlight = true → e.payload = .claim q g p l →
    c = { tag := { origin := s.settings.stationNumber, seq := q }, group := g, start := p, length := l } →
    b = { s.toStation with link.receiving := false, link.drive := .released, link.txq := es, link.fails := 0,
                           link.ownTaken := true, link.mark := s.fullMark,
                           claims := s.claims.filter (fun c => ahead c.finish s.pos.capture) } →
    (∀ f, s.agenda.find? (Entry.wants q) = some f → b.claimRefusal s.pos.capture c = none →
      exec (.frameTake x) s =
        .next { s with toStation := { b with claims := placeClaim s.pos.capture c b.claims,
                                             agenda := settleFirst q (.held q) s.agenda } }) ∧
    (∀ f r, s.agenda.find? (Entry.wants q) = some f → b.claimRefusal s.pos.capture c = some r →
      exec (.frameTake x) s =
        .next { s with toStation := { b with
          agenda := settleFirst q .lost s.agenda
          events := s.eventsWith { kind := .windowLost, item := some f.item, template := some f.template,
                                   claim := some c.tag, reason := some r.code } } }) ∧
    (s.agenda.find? (Entry.wants q) = none → b.claimRefusal s.pos.capture c = none → es.length < 16 →
      exec (.frameTake x) s =
        .next { s with toStation := { b with
          claims := placeClaim s.pos.capture c b.claims
          link.txq := es ++ [{ payload := .yield q, attempts := 0, origin := .link, inFlight := false }]
          events := s.eventsWith { kind := .orphanYield, claim := some c.tag } } }) ∧
    (s.agenda.find? (Entry.wants q) = none → b.claimRefusal s.pos.capture c = none → 16 ≤ es.length →
      exec (.frameTake x) s =
        .next { s with toStation := { b with
          claims := placeClaim s.pos.capture c b.claims
          events := pushEvent
            { fields := { kind := .txqFull, claim := some c.tag, reason := some 2 }, pos := s.pos.count, lostAfter := false }
            (s.eventsWith { kind := .orphanYield, claim := some c.tag }) } }) ∧
    ∀ r, s.agenda.find? (Entry.wants q) = none → b.claimRefusal s.pos.capture c = some r →
      exec (.frameTake x) s = .next { s with toStation := b }

/-- The first take in JOINING aligns the station by stamp less capture and takes it to SETTLING, with ALIGNED before
STATE_CHANGE; a MARK then does no more than the purge (R13, R17, R42, R56). A DUP_STATION for the station's own number
comes first (R44). An alignment moves the queued SIGHT frames that are not in flight and no other frame (R13). -/
def Obligations.TheFirstTakeAligns : Prop :=
  (∀ (e : TxEntry) (k : Pos),
    (∀ q p l c, e.payload = .sight q p l c → e.inFlight = false →
      e.align k = { e with payload := .sight q (p + k) l c }) ∧
    (e.inFlight = true ∨ e.payload.kind ≠ .sight → e.align k = e)) ∧
  ∀ (s : State) (f : Frame) (k : Pos), s.Decoding → s.ctl.state = .joining → s.agenda = [] → f.payload = .mark → k = f.stamp - s.pos.capture →
    exec (.frameTake f) s =
      .next { s with
        pos.count := s.pos.count + k
        pos.sub := 0
        pos.matchReg := none
        link.txq := s.link.txq.map (TxEntry.align k)
        link.receiving := false
        link.drive := .released
        link.mark := s.fullMark
        sense.inputs := s.sense.inputs.map (fun i => { i with last := i.last.map (· + k) })
        ctl.state := .settling
        ctl.join := .stopped
        ctl.settleStart := some (s.pos.count + k)
        claims := s.claims.filter (fun c => ahead c.finish f.stamp)
        events := pushEvent { fields := stateChange .joining .settling .joinFrame, pos := s.pos.count + k,
                              lostAfter := false }
          (pushEvent { fields := { kind := .aligned, station := some f.sender, value := some k.toInt },
                       pos := s.pos.count + k, lostAfter := false } (s.notedEvents f)) }

/-- The skew check at a take in SETTLING or ACTIVE: within tolerance nothing but the purge follows a MARK; outside, the
suspect record is set, SKEW and STATE_CHANGE are recorded and the station is DRIFTED with its mark timer stopped (R18,
R19, R42, R59). A DUP_STATION for the station's own number comes first (R44). -/
def Obligations.TheSkewCheckEntersDrifted : Prop :=
  ∀ (s : State) (f : Frame) (k : Pos), s.Decoding → (s.ctl.state = .settling ∨ s.ctl.state = .active) →
    f.payload = .mark → k = f.stamp - s.pos.capture →
    (k.toInt.natAbs ≤ s.settings.skewTolerance.toNat →
      exec (.frameTake f) s =
        .next { s with link.receiving := false, link.drive := .released, events := s.notedEvents f,
                       claims := s.claims.filter (fun c => ahead c.finish f.stamp) }) ∧
    (s.settings.skewTolerance.toNat < k.toInt.natAbs →
      exec (.frameTake f) s =
        .next { s with
          link.receiving := false
          link.drive := .released
          link.mark := .stopped
          pos.suspect := some { station := f.sender, skew := k }
          ctl.state := .drifted
          ctl.resume := if s.ctl.state = .active then some .active else some .settling
          claims := s.claims.filter (fun c => ahead c.finish f.stamp)
          events := pushEvent { fields := stateChange s.ctl.state .drifted .skew, pos := s.pos.count, lostAfter := false }
            (pushEvent { fields := { kind := .skew, station := some f.sender, value := some k.toInt },
                         pos := s.pos.count, lostAfter := false } (s.notedEvents f)) })

/-- Drift resolution: the cases of R20 for a sender other than the suspect, in their order, and those of R21 for the
suspect. A return leaves the resume state and the suspect record absent and starts the mark timer (R20, R21, R60). -/
def Obligations.DriftIsResolvedByCases : Prop :=
  ∀ (s : Station) (u : Suspect) (r : ResumeState) (sender : Station5) (k : Pos), s.ctl.state = .drifted →
    s.pos.suspect = some u → s.ctl.resume = some r →
    (sender = u.station → k.toInt.natAbs ≤ s.settings.skewTolerance.toNat →
      s.judgePosition sender k =
        { s with pos.suspect := none, ctl.resume := none, ctl.state := r.toState, link.mark := s.fullMark,
                 events := s.eventsWith (stateChange .drifted r.toState .resolved) }) ∧
    (sender = u.station → s.settings.skewTolerance.toNat < k.toInt.natAbs →
      s.judgePosition sender k = { s with pos.suspect := some { station := u.station, skew := k } }) ∧
    (sender ≠ u.station → k.toInt.natAbs ≤ s.settings.skewTolerance.toNat →
      s.judgePosition sender k =
        { s with pos.suspect := none, ctl.resume := none, ctl.state := r.toState, link.mark := s.fullMark,
                 events := pushEvent
                   { fields := stateChange .drifted r.toState .resolved, pos := s.pos.count, lostAfter := false }
                   (s.eventsWith { kind := .skewSender, station := some u.station }) }) ∧
    (sender ≠ u.station → s.settings.skewTolerance.toNat < k.toInt.natAbs →
      (k - u.skew).toInt.natAbs ≤ s.settings.skewTolerance.toNat →
      s.judgePosition sender k =
        { s.align k with
          pos.suspect := none
          ctl.resume := none
          ctl.state := r.toState
          link.mark := s.fullMark
          events := pushEvent
            { fields := stateChange .drifted r.toState .resolved, pos := s.pos.count + k, lostAfter := false }
            ((s.align k).eventsWith { kind := .realigned, station := some sender, value := some k.toInt }) }) ∧
    (sender ≠ u.station → s.settings.skewTolerance.toNat < k.toInt.natAbs →
      s.settings.skewTolerance.toNat < (k - u.skew).toInt.natAbs →
      s.judgePosition sender k =
        { s with pos.suspect := some { station := sender, skew := k },
                 events := s.eventsWith { kind := .skew, station := some sender, value := some k.toInt } })

/-- A MUTE station returns to its resume state by RESUME and by its 32nd clean take; every other take raises the
good-frame run by one (R42, R45, R62). A DUP_STATION for the station's own number comes first (R44). -/
def Obligations.MuteIsLeftByResumeOrCleanTakes : Prop :=
  ∀ (s : State) (r : ResumeState), s.ctl.state = .mute → s.ctl.resume = some r →
    exec .resume s =
      .next { s with ctl.state := r.toState, ctl.resume := none, link.goodRun := 0, link.mark := s.fullMark,
                     events := s.eventsWith (stateChange .mute r.toState .resume),
                     port := s.port.answered 3 .done 0 } ∧
    ∀ f : Frame, s.Decoding → f.payload = .mark →
      (s.link.goodRun < 31 →
        exec (.frameTake f) s =
          .next { s with link.receiving := false, link.drive := .released, link.goodRun := s.link.goodRun + 1,
                         events := s.notedEvents f,
                         claims := s.claims.filter (fun c => ahead c.finish f.stamp) }) ∧
      (s.link.goodRun = 31 → (f.stamp - s.pos.capture).toInt.natAbs ≤ s.settings.skewTolerance.toNat →
        exec (.frameTake f) s =
          .next { s with link.receiving := false, link.drive := .released, link.goodRun := 0, link.mark := s.fullMark,
                         ctl.state := r.toState, ctl.resume := none,
                         events := pushEvent { fields := stateChange .mute r.toState .goodRun, pos := s.pos.count,
                                               lostAfter := false } (s.notedEvents f),
                         claims := s.claims.filter (fun c => ahead c.finish f.stamp) })

/-- After a station applies a taken frame, no claim in its claims table ends at or behind that frame's stamp; a frame
that is no CLAIM and no YIELD changes the table by the purge alone, and a rejected frame leaves it (R125). -/
def Obligations.EveryTakePurges : Prop :=
  ∀ (s : State) (f : Frame),
    (s.Decoding → f.payload.kind ≠ .claim → f.payload.kind ≠ .yield →
      ∃ t, exec (.frameTake f) s = .next t ∧ t.claims = s.claims.filter (fun c => ahead c.finish f.stamp)) ∧
    (∃ t, exec .frameRejected s = .next t ∧ t.claims = s.claims) ∧
    (s.Decoding → ∃ t, exec (.frameTake f) s = .next t ∧ ∀ c ∈ t.claims, ahead c.finish f.stamp = true) ∧
    (s.receiverOn = true → s.headInFlight = true →
      ∃ t, exec (.frameTake f) s = .next t ∧ ∀ c ∈ t.claims, ahead c.finish s.pos.capture = true)

/-- The replicated table: two stations with the same claim horizon that hold the same claims in the same order before a
take hold the same claims in the same order after it, and judge a CLAIM alike, whatever else differs between them, and
whether one of them sent the frame or neither did (R136). -/
def Obligations.StationsAgreeOnClaims : Prop :=
  ∀ (s₁ s₂ : State) (f : Frame), (s₁.Decoding ∨ s₁.receiverOn = true ∧ s₁.ownFrame = some f) → s₂.Decoding →
    s₁.settings.claimHorizon = s₂.settings.claimHorizon → s₁.claims = s₂.claims →
    (∃ t₁ t₂, exec (.frameTake f) s₁ = .next t₁ ∧ exec (.frameTake f) s₂ = .next t₂ ∧ t₁.claims = t₂.claims) ∧
      ∀ c : Claim, (s₁.purge f.stamp).claimRefusal f.stamp c = (s₂.purge f.stamp).claimRefusal f.stamp c

/-- The checks of a CLAIM take in the order of R127, each deciding where those before it have passed, and what the frame
does to the table at its sender and at every other station (R121, R127, R128). An entered claim stands immediately
before the first claim of a greater key, the signed distance of its start from the stamp, or at the end (R120). -/
def Obligations.ClaimChecksInOrder : Prop :=
  (∀ (t : Pos) (c : Claim) (ds : List Claim),
    placeClaim t c ds = ds.takeWhile (fun d => decide ((d.start - t).toInt ≤ (c.start - t).toInt)) ++
      c :: ds.dropWhile (fun d => decide ((d.start - t).toInt ≤ (c.start - t).toInt))) ∧
  ∀ (s : Station) (t : Pos) (c : Claim),
    (ahead c.start t = false → s.claimRefusal t c = some .late) ∧
    (ahead c.start t = true → s.settings.claimHorizon.toNat < dist c.finish t → s.claimRefusal t c = some .far) ∧
    (ahead c.start t = true → dist c.finish t ≤ s.settings.claimHorizon.toNat →
      ((∃ d ∈ s.claims, d.tag = c.tag) → s.claimRefusal t c = some .dup) ∧
      ((∀ d ∈ s.claims, d.tag ≠ c.tag) →
        ((∃ d ∈ s.claims, d.group = c.group ∧ d.length ≠ 0 ∧ c.length ≠ 0 ∧
            (c.start - t).toInt < (d.start - t).toInt + d.length.toNat ∧
            (d.start - t).toInt < (c.start - t).toInt + c.length.toNat) →
          s.claimRefusal t c = some .clash) ∧
        ((∀ d ∈ s.claims, d.group = c.group → d.length = 0 ∨ c.length = 0 ∨
            (d.start - t).toInt + d.length.toNat ≤ (c.start - t).toInt ∨
            (c.start - t).toInt + c.length.toNat ≤ (d.start - t).toInt) →
          (32 ≤ s.claims.length → s.claimRefusal t c = some .full) ∧
          (s.claims.length < 32 → s.claimRefusal t c = none)))) ∧
    (s.claimRefusal t c = none → s.takeClaim false t c = { s with claims := placeClaim t c s.claims }) ∧
    ((s.claimRefusal t c).isSome = true → s.takeClaim false t c = s ∧ (s.takeClaim true t c).claims = s.claims) ∧
    (s.claimRefusal t c = none → (s.takeClaim true t c).claims = placeClaim t c s.claims)

/-- The take of a YIELD removes the claim it names from the purged table and nothing else, and changes nothing where the
claim is absent: in SETTLING and ACTIVE within tolerance, at the YIELD's own sender, and to the table in every state
(R130). The table holds no two claims of one tag (R120). The mark `ownTaken` of an own take is the model's (log 24). -/
def Obligations.YieldsRemoveTheirClaim : Prop :=
  ∀ (s : State) (f : Frame) (q : Seq8), s.claims.Pairwise (fun c d => c.tag ≠ d.tag) →
    (s.Decoding → (s.ctl.state = .settling ∨ s.ctl.state = .active) →
      f.payload = .yield q →
      (f.stamp - s.pos.capture).toInt.natAbs ≤ s.settings.skewTolerance.toNat →
      exec (.frameTake f) s =
        .next { s with link.receiving := false, link.drive := .released, events := s.notedEvents f,
                       claims := (s.claims.filter (fun c => ahead c.finish f.stamp)).filter
                         (fun c => c.tag != { origin := f.sender, seq := q }) }) ∧
    (s.Decoding → f.payload = .yield q →
      ∃ t, exec (.frameTake f) s = .next t ∧
        t.claims = (s.claims.filter (fun c => ahead c.finish f.stamp)).filter
          (fun c => c.tag != { origin := f.sender, seq := q })) ∧
    ∀ e es, s.receiverOn = true → s.link.txq = e :: es → e.inFlight = true → e.payload = .yield q →
      exec (.frameTake f) s =
        .next { s with link.receiving := false, link.drive := .released, link.txq := es, link.fails := 0,
                       link.ownTaken := true, link.mark := s.fullMark,
                       claims := (s.claims.filter (fun c => ahead c.finish s.pos.capture)).filter
                         (fun c => c.tag != { origin := s.settings.stationNumber, seq := q }) }

/-! ## The track table and the agenda (Chapters 5 and 6) -/

/-- The checks of a SIGHT take in the order of R81, and the entry of an item that passes them (R81, R82): it stands
immediately before the first item that has a smaller behind-distance from the stamp or is ahead of it, or at the end
(R79). -/
def Obligations.SightChecksInOrder : Prop :=
  (∀ (t : Pos) (i : Item) (js : List Item),
    placeItem t i js =
      js.takeWhile (fun j => !ahead j.sighting t && decide (dist t i.sighting ≤ dist t j.sighting)) ++
        i :: js.dropWhile (fun j => !ahead j.sighting t && decide (dist t i.sighting ≤ dist t j.sighting))) ∧
  ∀ (s : Station) (t : Pos) (i : Item),
    (ahead i.sighting t = true → s.takeSight t i =
      s.addRecord { kind := .badSight, item := some i.tag, station := some i.tag.origin,
                    value := some (dist i.sighting t : Int) }) ∧
    (ahead i.sighting t = false →
      (s.settings.trackHorizon.toNat < dist t i.sighting → s.takeSight t i =
        s.addRecord { kind := .staleSight, item := some i.tag, station := some i.tag.origin,
                      value := some (dist t i.sighting : Int) }) ∧
      (dist t i.sighting ≤ s.settings.trackHorizon.toNat →
        ((∃ j ∈ s.track, j.tag = i.tag) → s.takeSight t i =
          s.addRecord { kind := .dupTag, item := some i.tag, station := some i.tag.origin }) ∧
        ((∀ j ∈ s.track, j.tag ≠ i.tag) →
          (48 ≤ s.track.length → s.takeSight t i =
            s.addRecord { kind := .trackFull, item := some i.tag, station := some i.tag.origin }) ∧
          (s.track.length < 48 → s.takeSight t i = ({ s with track := placeItem t i s.track }).insertItem i))))

/-- The take of a VERDICT: BAD_VERDICT for a field of 0 or 3, VERDICT_UNKNOWN for an item that is not in the table, and
otherwise the merge into the item (R85); the merge's table, and that the verdict depends only on the set of the verdicts
taken and not on their order, REJECT if any carried REJECT, PASS if all carried PASS, UNDECIDED if there were none,
with the source of a REJECT the first station that sent one (R86). -/
def Obligations.VerdictsAreMerged : Prop :=
  (∀ (s : Station) (sender : Station5) (tag : Tag),
    (∀ v : BitVec 2, v = 0 ∨ v = 3 → s.takeVerdict sender tag v =
      s.addRecord { kind := .badVerdict, item := some tag, station := some sender, reason := some (v.setWidth 4) }) ∧
    (∀ v : BitVec 2, v = 1 ∨ v = 2 → (∀ i ∈ s.track, i.tag ≠ tag) → s.takeVerdict sender tag v =
      s.addRecord { kind := .verdictUnknown, item := some tag, station := some sender,
                    reason := some (v.setWidth 4) }) ∧
    ∀ v : BitVec 2, v = 1 ∨ v = 2 → (∃ i ∈ s.track, i.tag = tag) → s.takeVerdict sender tag v =
      { s with track := s.track.map (fun i =>
          if i.tag = tag then i.merge (if v = 1 then .pass else .reject) sender else i) }) ∧
  (∀ (i : Item) (o : Station5),
    (i.verdict = .undecided → i.merge .pass o = { i with verdict := .pass, source := some o } ∧
      i.merge .reject o = { i with verdict := .reject, source := some o }) ∧
    (i.verdict = .pass → i.merge .pass o = i ∧ i.merge .reject o = { i with verdict := .reject, source := some o }) ∧
    (i.verdict = .reject → i.merge .pass o = i ∧ i.merge .reject o = i)) ∧
    ∀ (i : Item) (vs : List (Bool × Station5)), i.verdict = .undecided →
      (vs.foldl (fun j p => j.merge (if p.1 then .reject else .pass) p.2) i).verdict =
        (if vs.any Prod.fst then .reject else if vs.isEmpty then .undecided else .pass) ∧
      ∀ p, vs.find? Prod.fst = some p →
        (vs.foldl (fun j p => j.merge (if p.1 then .reject else .pass) p.2) i).source = some p.2

/-- The removal of an item by a RETIRE take and by DROP_ITEM: the record leaves the table and every entry of the item
leaves the agenda, each in agenda order with the claim release that LeavingEntriesReleaseTheirClaims states; an absent
item changes nothing at a take and is NOT_FOUND for the command (R88, R91, R92, R116). -/
def Obligations.RemovalCancelsTheEntries : Prop :=
  (∀ (s : Station) (tag : Tag), s.takeRetire tag = if ∃ i ∈ s.track, i.tag = tag then s.removeItem tag else s) ∧
    (∀ (s u : Station) (tag : Tag),
      u = (s.agenda.filter (fun e => e.item == tag)).foldl
        (fun v e => ({ v with agenda := v.agenda.erase e } : Station).releaseClaim e)
        { s with track := s.track.eraseP (fun i => i.tag == tag) } →
      s.removeItem tag = { u with pos.matchReg := u.agenda.head?.map Entry.fire }) ∧
    (∀ (s : Station) (tag : Tag),
      (s.removeItem tag).track = s.track.eraseP (fun i => i.tag == tag) ∧
      (s.removeItem tag).agenda = s.agenda.filter (fun e => e.item != tag) ∧
      (s.removeItem tag).pos =
        { s.pos with matchReg := (s.agenda.filter (fun e => e.item != tag)).head?.map Entry.fire } ∧
      (s.removeItem tag).link = { s.link with txq := (s.removeItem tag).link.txq } ∧
      (s.removeItem tag).ctl = s.ctl ∧ (s.removeItem tag).claims = s.claims ∧ (s.removeItem tag).port = s.port ∧
      (s.removeItem tag).channels = s.channels ∧ (s.removeItem tag).sense = s.sense ∧
      (s.removeItem tag).settings = s.settings ∧ (s.removeItem tag).claimSeq = s.claimSeq ∧
      (s.removeItem tag).pins = s.pins) ∧
    ∀ s : State,
      (∀ o q, s.port.args.r0.toNat = o → s.port.args.r1.toNat = q → o ≤ 31 → q ≤ 255 →
        ∀ tag, tag = { origin := BitVec.ofNat 5 o, seq := BitVec.ofNat 8 q } →
        ((∃ i ∈ s.track, i.tag = tag) → exec .dropItem s =
          .next { s with toStation := { s.removeItem tag with port := s.port.answered 7 .done 0 } }) ∧
        ((∀ i ∈ s.track, i.tag ≠ tag) → exec .dropItem s = .next { s with port := s.port.answered 7 .notFound 0 })) ∧
      (31 < s.port.args.r0.toNat ∨ 255 < s.port.args.r1.toNat →
        exec .dropItem s = .next { s with port := s.port.answered 7 .refusedArg 0 })

/-- A new item is handled for T0 to T15 in turn, and the match register is then loaded; and one template handled for it:
not matching, late, refused by a full agenda, or inserted with the claim state that claim making gives (R98 to R105). An
inserted entry stands behind the entries that are nearer and, at its own fire position, behind those of its template
number or a lower one, and before the first that is neither (R102). -/
def Obligations.TemplatesMakeEntries : Prop :=
  (∀ (p : Pos) (e : Entry) (fs : List Entry),
    insertEntry p e fs =
      fs.takeWhile (fun f => decide (dist f.fire p < dist e.fire p) ||
        (f.fire == e.fire && decide (f.template ≤ e.template))) ++
      e :: fs.dropWhile (fun f => decide (dist f.fire p < dist e.fire p) ||
        (f.fire == e.fire && decide (f.template ≤ e.template)))) ∧
  (∀ (s t : Station) (i : Item), t = (List.finRange 16).foldl (Station.insertFor i) s →
    s.insertItem i = { t with pos.matchReg := t.agenda.head?.map Entry.fire }) ∧
  ∀ (s : Station) (i : Item) (t : Fin 16) (f : Pos), f = i.sighting + (s.template t).offset.setWidth 24 →
    ((s.template t).enabled = false ∨ (s.template t).origins.getLsbD i.tag.origin.toNat = false ∨
        (s.template t).lanes.getLsbD i.lane.toNat = false ∨ (s.template t).classes.getLsbD i.cls.toNat = false →
      s.insertFor i t = s) ∧
    ((s.template t).enabled = true → (s.template t).origins.getLsbD i.tag.origin.toNat = true →
      (s.template t).lanes.getLsbD i.lane.toNat = true → (s.template t).classes.getLsbD i.cls.toNat = true →
      (ahead f s.pos.count = false → s.insertFor i t = s.handleLate t i.tag (dist s.pos.count f)) ∧
      (ahead f s.pos.count = true →
        (64 ≤ s.agenda.length → s.insertFor i t =
          s.addRecord { kind := .agendaFull, item := some i.tag, template := some t }) ∧
        (s.agenda.length < 64 → (s.template t).group = none →
          s.insertFor i t = { s with
            agenda := insertEntry s.pos.count
              { fire := f, template := t, item := i.tag, claim := .none } s.agenda }) ∧
        (s.agenda.length < 64 → ∀ g, (s.template t).group = some g →
          ∀ m, m = s.makeClaim t i.tag g (f - (s.template t).lead.setWidth 24) (s.template t).length →
          s.insertFor i t = { m.station with
            agenda := insertEntry s.pos.count
              { fire := f, template := t, item := i.tag, claim := m.claim } s.agenda })))

/-- Claim making: LOST outside ACTIVE, LOST where the pre-check finds a window in the way, LOST with TXQ_FULL where the
queue is full, and otherwise a CLAIM with the sequence drawn and WANTED (R106 to R108, R124). -/
def Obligations.ClaimsAreMadeInActive : Prop :=
  ∀ (s : Station) (t : Fin 16) (item : Tag) (g : BitVec 3) (p : Pos) (l : BitVec 16),
    (s.ctl.state ≠ .active → s.makeClaim t item g p l =
      { claim := .lost
        station := s.addRecord { kind := .windowLost, item := some item, template := some t, reason := some 1 } }) ∧
    (s.ctl.state = .active → s.precheckFails g p l = true → s.makeClaim t item g p l =
      { claim := .lost
        station := s.addRecord { kind := .windowLost, item := some item, template := some t, reason := some 2 } }) ∧
    (s.ctl.state = .active → s.precheckFails g p l = false →
      (16 ≤ s.link.txq.length → s.makeClaim t item g p l =
        { claim := .lost
          station := s.addRecord { kind := .txqFull, item := some item, template := some t, reason := some 3 } }) ∧
      (s.link.txq.length < 16 → s.makeClaim t item g p l =
        { claim := .wanted s.claimSeq
          station := { s with
            claimSeq := s.claimSeq + 1
            link.txq := s.link.txq ++
              [{ payload := .claim s.claimSeq g p l, attempts := 0, origin := .agenda, inFlight := false }] } })) ∧
    (s.precheckFails g p l = true ↔ ∃ g' p' l',
      ((∃ c ∈ s.claims, c.group = g' ∧ c.start = p' ∧ c.length = l') ∨
        ∃ e ∈ s.link.txq, ∃ q, e.payload = .claim q g' p' l') ∧
      g' = g ∧ ahead (p' + l'.setWidth 24) s.pos.count = true ∧ l ≠ 0 ∧ l' ≠ 0 ∧
      (p - s.pos.count).toInt < (p' - s.pos.count).toInt + l'.toNat ∧
      (p' - s.pos.count).toInt < (p - s.pos.count).toInt + l.toNat)

/-- The claim release of an entry that leaves the agenda, by its claim state (R41, R115). That the CLAIM withdrawn is the
first waiting one of the sequence in queue order is the model's reading (log 18). -/
def Obligations.LeavingEntriesReleaseTheirClaims : Prop :=
  ∀ (s : Station) (e : Entry) (p : Pos), p = e.fire - (s.template e.template).lead.setWidth 24 →
    (e.claim = .none ∨ e.claim = .lost → s.releaseClaim e = s) ∧
    (∀ q, e.claim = .held q →
      (ahead p s.pos.count = false → s.releaseClaim e = s) ∧
      (ahead p s.pos.count = true → s.link.txq.length < 16 →
        s.releaseClaim e = { s with link.txq := s.link.txq ++
          [{ payload := .yield q, attempts := 0, origin := .agenda, inFlight := false }] }) ∧
      (ahead p s.pos.count = true → 16 ≤ s.link.txq.length →
        s.releaseClaim e = s.addRecord
          { kind := .txqFull, claim := some { origin := s.settings.stationNumber, seq := q }, reason := some 2 })) ∧
    ∀ q, e.claim = .wanted q →
      s.releaseClaim e = { s with link.txq := s.link.txq.eraseP (TxEntry.isWaitingClaim q) } ∧
      (∀ x : TxEntry, TxEntry.isWaitingClaim q x = true ↔
        x.inFlight = false ∧ ∃ g start length, x.payload = .claim q g start length) ∧
      ∀ x ∈ s.link.txq, x.inFlight = true → x ∈ (s.releaseClaim e).link.txq

/-! ## Sensors and the commands that enqueue (Chapter 4; R93, R94) -/

/-- SENSOR_INPUT_CHANGE by the level read, the sensor's settings, the station state, the gap and the queue (R67 to
R72). -/
def Obligations.SensorEdgesMakeSightings : Prop :=
  ∀ (s : State) (n : Fin 4) (level : Bool) (x : SensorInput) (c : SensorSettings),
    x = s.sense.inputs.get n → c = s.settings.sensors.get n →
    (level = x.level → exec (.sensorInputChange n level) s = .next s) ∧
    (level ≠ x.level →
      (c.enabled = false ∨ ¬(c.edge = .rising ↔ level = true) ∨ s.ctl.state = .halted ∨ s.ctl.state = .joining →
        exec (.sensorInputChange n level) s =
          .next { s with sense.inputs := s.sense.inputs.set n.val { x with level := level } n.isLt }) ∧
      (c.enabled = true → (c.edge = .rising ↔ level = true) →
        (s.ctl.state = .mute → exec (.sensorInputChange n level) s =
          .next { s with sense.inputs := s.sense.inputs.set n.val { x with level := level } n.isLt,
                         events := s.eventsWith { kind := .sightLost, value := some (n.val : Int),
                                                  reason := some 1 } }) ∧
        (s.ctl.state = .settling ∨ s.ctl.state = .active ∨ s.ctl.state = .drifted →
          (∀ l, x.last = some l → dist s.pos.count l < c.gap.toNat → exec (.sensorInputChange n level) s =
            .next { s with sense.inputs := s.sense.inputs.set n.val { x with level := level } n.isLt }) ∧
          ((∀ l, x.last = some l → c.gap.toNat ≤ dist s.pos.count l) → s.link.txq.length < 16 →
            exec (.sensorInputChange n level) s =
              .next { s with
                sense.inputs := s.sense.inputs.set n.val { level := level, last := some s.pos.count } n.isLt
                sense.seq := s.sense.seq + 1
                link.txq := s.link.txq ++ [{ payload := .sight s.sense.seq s.pos.count c.lane c.cls, attempts := 0,
                                             origin := .sensor, inFlight := false }] }) ∧
          ((∀ l, x.last = some l → c.gap.toNat ≤ dist s.pos.count l) → 16 ≤ s.link.txq.length →
            exec (.sensorInputChange n level) s =
              .next { s with
                sense.inputs := s.sense.inputs.set n.val { level := level, last := some s.pos.count } n.isLt
                sense.seq := s.sense.seq + 1
                events := s.eventsWith
                  { kind := .txqFull, item := some { origin := s.settings.stationNumber, seq := s.sense.seq },
                    reason := some 0 } }))))

/-- POST_SIGHT, POST_VERDICT and RETIRE_ITEM in SETTLING and ACTIVE with arguments in range: the frame joins the queue
and the answer is DONE, or the queue is full, TXQ_FULL is recorded and the answer is REFUSED_FULL (R75, R93, R94). -/
def Obligations.PostedFramesAreEnqueued : Prop :=
  ∀ s : State, (s.ctl.state = .settling ∨ s.ctl.state = .active) →
    (∀ (lane : BitVec 2) (cls : BitVec 4) (p : Pos), s.port.args.r0 = lane.setWidth 32 →
      s.port.args.r1 = cls.setWidth 32 →
      (s.port.args.r2 = 1 ∧ p = s.pos.count ∨ s.port.args.r2 = 0 ∧ s.port.args.r3 = p.setWidth 32) →
      (s.link.txq.length < 16 → exec .postSight s =
        .next { s with
          sense.seq := s.sense.seq + 1
          link.txq := s.link.txq ++
            [{ payload := .sight s.sense.seq p lane cls, attempts := 0, origin := .sensor, inFlight := false }]
          port := s.port.answered 4 .done (s.sense.seq.setWidth 16) }) ∧
      (16 ≤ s.link.txq.length → exec .postSight s =
        .next { s with
          sense.seq := s.sense.seq + 1
          events := s.eventsWith
            { kind := .txqFull, item := some { origin := s.settings.stationNumber, seq := s.sense.seq },
              reason := some 0 }
          port := s.port.answered 4 .refusedFull (s.sense.seq.setWidth 16) })) ∧
    ∀ tag : Tag, s.port.args.r0 = tag.origin.setWidth 32 → s.port.args.r1 = tag.seq.setWidth 32 →
      (∀ v : BitVec 2, v = 1 ∨ v = 2 → s.port.args.r2 = v.setWidth 32 →
        (s.link.txq.length < 16 → exec .postVerdict s =
          .next { s with
            link.txq := s.link.txq ++ [{ payload := .verdict tag v, attempts := 0, origin := .host, inFlight := false }]
            port := s.port.answered 5 .done 0 }) ∧
        (16 ≤ s.link.txq.length → exec .postVerdict s =
          .next { s with events := s.eventsWith { kind := .txqFull, item := some tag, reason := some 1 },
                         port := s.port.answered 5 .refusedFull 0 })) ∧
      (s.link.txq.length < 16 → exec .retireItem s =
        .next { s with
          link.txq := s.link.txq ++ [{ payload := .retire tag, attempts := 0, origin := .host, inFlight := false }]
          port := s.port.answered 6 .done 0 }) ∧
      (16 ≤ s.link.txq.length → exec .retireItem s =
        .next { s with events := s.eventsWith { kind := .txqFull, item := some tag, reason := some 4 },
                       port := s.port.answered 6 .refusedFull 0 })

/-- A command that the station state does not allow, a posting command with an argument out of range, and a code that
runs no command change nothing but COMMAND, RESULT, the last access result and the MISO word (R51, R75, R93, R94,
R180). -/
def Obligations.RefusedCommandsChangeNothing : Prop :=
  ∀ s : State,
    (s.ctl.state ≠ .halted → exec .start s = .next { s with port := s.port.answered 1 .refusedState 0 }) ∧
    (s.ctl.state = .halted → exec .stop s = .next { s with port := s.port.answered 2 .refusedState 0 }) ∧
    (s.ctl.state ≠ .mute → exec .resume s = .next { s with port := s.port.answered 3 .refusedState 0 }) ∧
    (s.ctl.state ≠ .settling → s.ctl.state ≠ .active →
      exec .postSight s = .next { s with port := s.port.answered 4 .refusedState 0 } ∧
      exec .postVerdict s = .next { s with port := s.port.answered 5 .refusedState 0 } ∧
      exec .retireItem s = .next { s with port := s.port.answered 6 .refusedState 0 }) ∧
    (s.ctl.state = .settling ∨ s.ctl.state = .active →
      (3 < s.port.args.r0.toNat ∨ 15 < s.port.args.r1.toNat ∨ 1 < s.port.args.r2.toNat ∨
          s.port.args.r2 = 0 ∧ 16777215 < s.port.args.r3.toNat →
        exec .postSight s = .next { s with port := s.port.answered 4 .refusedArg 0 }) ∧
      (31 < s.port.args.r0.toNat ∨ 255 < s.port.args.r1.toNat ∨ s.port.args.r2 ≠ 1 ∧ s.port.args.r2 ≠ 2 →
        exec .postVerdict s = .next { s with port := s.port.answered 5 .refusedArg 0 }) ∧
      (31 < s.port.args.r0.toNat ∨ 255 < s.port.args.r1.toNat →
        exec .retireItem s = .next { s with port := s.port.answered 6 .refusedArg 0 })) ∧
    ∀ code : BitVec 8, code = 0 ∨ 11 ≤ code.toNat →
      exec (.unassignedCommand code) s = .next { s with port := s.port.answered code .refusedArg 0 }

/-! ## START and STOP (Chapter 3) -/

/-- START in HALTED: refused with what validation finds, or accepted, and then JOINING with the join timer loaded, the
line counted busy and STATE_CHANGE recorded, and everything else kept (R52, R54). -/
def Obligations.StartIsRefusedOrAccepted : Prop :=
  ∀ s : State, s.ctl.state = .halted →
    (∀ code detail, s.validate = some (code, detail) →
      exec .start s = .next { s with port := s.port.answered 1 code detail }) ∧
    (s.validate = none →
      exec .start s =
        .next { s with
          ctl.state := .joining
          ctl.join := .running (1000 * s.settings.joinWait.toNat)
          link.idle := false
          link.receiving := false
          link.drive := .released
          events := s.eventsWith (stateChange .halted .joining .start)
          port := s.port.answered 1 .done 0 })

/-- START validation: the three checks in their order, each with its templates or channels in number order, and the
code and number that the first fault found gives; a START in HALTED is refused with them (R53). -/
def Obligations.ValidationFindsTheFirstFault : Prop :=
  (∀ (s : State) (code : ResultCode) (number : BitVec 16), s.ctl.state = .halted → s.validate = some (code, number) →
    exec .start s = .next { s with port := s.port.answered 1 code number }) ∧
  ∀ s : Station,
    (∀ t : Fin 16, ((s.template t).enabled = true ∧ s.settings.trackHorizon.toNat ≤ (s.template t).offset.toNat) →
      (∀ u, u < t → (s.template u).enabled = true →
        (s.template u).offset.toNat < s.settings.trackHorizon.toNat) →
      s.validate = some (.refusedOffset, BitVec.ofNat 16 t.val)) ∧
    ((∀ u, (s.template u).enabled = true → (s.template u).offset.toNat < s.settings.trackHorizon.toNat) →
      (∀ t : Fin 16, ((s.template t).enabled = true ∧ (s.template t).group ≠ none ∧
          s.settings.claimHorizon.toNat < (s.template t).offset.toNat + (s.template t).length.toNat) →
        (∀ u, u < t → (s.template u).enabled = true → (s.template u).group ≠ none →
          (s.template u).offset.toNat + (s.template u).length.toNat ≤ s.settings.claimHorizon.toNat) →
        s.validate = some (.refusedWindow, BitVec.ofNat 16 t.val)) ∧
      ((∀ u, (s.template u).enabled = true → (s.template u).group ≠ none →
          (s.template u).offset.toNat + (s.template u).length.toNat ≤ s.settings.claimHorizon.toNat) →
        ((∀ d : Fin 4, ∃ n, s.chainAfter n d = none) → s.validate = none) ∧
        ∀ d : Fin 4, (∀ n, s.chainAfter n d ≠ none) → (∀ e, e < d → ∃ n, s.chainAfter n e = none) →
          ∃ c : Fin 4, s.validate = some (.refusedChain, BitVec.ofNat 16 c.val) ∧ (∃ m, s.chainAfter m d = some c) ∧
            (∃ n, 1 ≤ n ∧ s.chainAfter n c = some c) ∧ ∀ m x, s.chainAfter m c = some x → c ≤ x))

/-- STOP outside HALTED: what it empties, stops, clears and makes absent, its one record, and what it keeps (R63). The mark
`ownTaken` that it clears is the model's (log 24). -/
def Obligations.StopHaltsAndClears : Prop :=
  ∀ s : State, s.ctl.state ≠ .halted →
    exec .stop s =
      .next { s with
        ctl := { state := .halted, resume := none, join := .stopped, settleStart := none }
        pos.suspect := none
        pos.matchReg := none
        link := { txq := [], fails := 0, mark := .stopped, goodRun := 0, idle := false, receiving := false,
                  drive := .released, ownTaken := false }
        track := []
        agenda := []
        claims := []
        channels := s.channels.map (fun c => { c with run := none })
        sense.inputs := s.sense.inputs.map (fun i => { i with last := none })
        events := s.eventsWith (stateChange s.ctl.state .halted .stop)
        port := s.port.answered 2 .done 0 }

/-! ## Output channels (Chapter 8) -/

/-- FORCE_FIRE with arguments in range: INHIBITED, COLLISION or a load, by the checks of R148 in their order; and a load
takes up a pending commit and makes the run record from the live form (R148, R149, R158). A request of any source has the same
checks, and a dropped one is recorded with its item and its source (R148, R166). -/
def Obligations.ForceFireLoadsAnIdleChannel : Prop :=
  (∀ (s : State) (c : Fin 4) (sl : Slot), s.port.args.r0.toNat = c.val →
    s.port.args.r1 = (match sl with | .a => 0 | .b => 1) →
    (s.inhibits c = true → exec .forceFire s =
      .next { s with events := s.eventsWith { kind := .inhibited, channel := some c, reason := some 3 },
                     port := s.port.answered 8 .inhibited (BitVec.ofNat 16 c.val) }) ∧
    (s.inhibits c = false → (s.chan c).run.isSome = true → exec .forceFire s =
      .next { s with events := s.eventsWith { kind := .collision, channel := some c, reason := some 3 },
                     port := s.port.answered 8 .collision (BitVec.ofNat 16 c.val) }) ∧
    (s.inhibits c = false → (s.chan c).run = none → exec .forceFire s =
      .next { s with channels := s.channels.set c.val ((s.chan c).load sl .force none) c.isLt,
                     port := s.port.answered 8 .done 0 })) ∧
    (∀ s : State, 3 < s.port.args.r0.toNat ∨ 1 < s.port.args.r1.toNat →
      exec .forceFire s = .next { s with port := s.port.answered 8 .refusedArg 0 }) ∧
    (∀ (s : Station) (c : Fin 4) (sl : Slot) (source : Source) (item : Option Tag) (code : BitVec 4),
      code = (match source with | .agenda => 1 | .chain => 2 | .force => 3) →
      (s.inhibits c = true → s.fireRequest c sl source item =
        s.addRecord { kind := .inhibited, item := item, channel := some c, reason := some code }) ∧
      (s.inhibits c = false → (s.chan c).run.isSome = true → s.fireRequest c sl source item =
        s.addRecord { kind := .collision, item := item, channel := some c, reason := some code }) ∧
      (s.inhibits c = false → (s.chan c).run = none → s.fireRequest c sl source item =
        { s with channels := s.channels.set c.val ((s.chan c).load sl source item) c.isLt })) ∧
    ∀ (ch : Channel) (sl : Slot) (source : Source) (item : Option Tag) (live : Form),
      live = (if (ch.slot sl).pending then (ch.slot sl).staged else (ch.slot sl).live) →
      (ch.load sl source item).slot sl = { live := live, staged := (ch.slot sl).staged, pending := false } ∧
      (∀ sl', sl' ≠ sl → (ch.load sl source item).slot sl' = ch.slot sl') ∧
      (ch.load sl source item).run =
        some { phase := if live.delay = 0 then .high else .delay
               slot := sl, source := source, item := item
               form := { kind := live.kind, high := live.high, low := live.low, burst := live.burst, cap := live.cap }
               pulses := if live.kind = .burst then live.burst.toNat - 1 else 0
               left := if live.delay = 0 then live.high.toNat else live.delay.toNat }

/-- DELAY_EXPIRY and LOW_WIDTH_EXPIRY enter HIGH for the high width, HIGH_WIDTH_EXPIRY of a BURST with pulses remaining
enters LOW for the low width with one fewer, and of a HELD form under its hold condition enters HOLD for the hold cap;
an expiry of a phase the channel is not in changes nothing (R150, R152, R153). Two points are the model's choice: an
expiry acts whatever time is left (log 3), and an expiry of another phase changes nothing (log 4). -/
def Obligations.PhasesFollowOneAnother : Prop :=
  ∀ (s : State) (c : Fin 4),
    (∀ r, (s.chan c).run = some r →
      (r.phase = .delay → exec (.delayExpiry c) s =
        .next { s with channels := s.channels.set c.val
                         { s.chan c with run := some { r with phase := .high, left := r.form.high.toNat } } c.isLt }) ∧
      (r.phase = .low → exec (.lowWidthExpiry c) s =
        .next { s with channels := s.channels.set c.val
                         { s.chan c with run := some { r with phase := .high, left := r.form.high.toNat } } c.isLt }) ∧
      (r.phase = .high → r.form.kind = .burst → r.pulses ≠ 0 → exec (.highWidthExpiry c) s =
        .next { s with channels := s.channels.set c.val
                         { s.chan c with run := some { r with phase := .low, pulses := r.pulses - 1,
                                                              left := r.form.low.toNat } } c.isLt }) ∧
      (r.phase = .high → r.form.kind = .held → s.holds c = true → r.form.cap ≠ 0 → exec (.highWidthExpiry c) s =
        .next { s with channels := s.channels.set c.val
                         { s.chan c with run := some { r with phase := .hold, left := r.form.cap.toNat } } c.isLt })) ∧
    ((∀ r, (s.chan c).run = some r → r.phase ≠ .delay) → exec (.delayExpiry c) s = .next s) ∧
    ((∀ r, (s.chan c).run = some r → r.phase ≠ .low) → exec (.lowWidthExpiry c) s = .next s) ∧
    ((∀ r, (s.chan c).run = some r → r.phase ≠ .high) → exec (.highWidthExpiry c) s = .next s) ∧
    ((∀ r, (s.chan c).run = some r → r.phase ≠ .hold) → exec (.holdCapExpiry c) s = .next s)

/-- The ends of a sequence: the last HIGH of SINGLE, BURST and HELD, and the hold cap, with HOLD_CAP while the hold
condition holds. The channel is IDLE, and outside HALTED the chain is followed with the sequence's item (R151 to R156).
That an expiry acts whatever time is left is the model's choice (log 3). So is the end with no record of a hold cap whose
hold condition no longer holds, which no run reaches: HOLD has ended then (R154; log 17). -/
def Obligations.SequencesEndAndChain : Prop :=
  ∀ (s : State) (c : Fin 4) (r : Run) (e : Station), (s.chan c).run = some r →
    e = { s.toStation with channels := s.channels.set c.val { s.chan c with run := none } c.isLt } →
    (r.phase = .high →
      (r.form.kind = .single ∨ r.form.kind = .burst ∧ r.pulses = 0 ∨
        r.form.kind = .held ∧ (s.holds c = false ∨ r.form.cap = 0)) →
      (s.ctl.state = .halted ∨ (s.settings.channels.get c).chained = false →
        exec (.highWidthExpiry c) s = .next { s with toStation := e }) ∧
      (s.ctl.state ≠ .halted → (s.settings.channels.get c).chained = true →
        exec (.highWidthExpiry c) s =
          .next { s with toStation := e.fireRequest (s.settings.channels.get c).chainChannel
                           (s.settings.channels.get c).chainSlot .chain r.item })) ∧
    (r.phase = .hold → (s.ctl.state = .halted ∨ (s.settings.channels.get c).chained = false) →
      exec (.holdCapExpiry c) s =
        .next { s with
          toStation := { e with
            events := if s.holds c then
                s.eventsWith { kind := .holdCap, item := r.item, channel := some c,
                               value := some (r.form.cap.toNat : Int) }
              else s.events } }) ∧
    (r.phase = .hold → s.holds c = true → s.ctl.state ≠ .halted → (s.settings.channels.get c).chained = true →
      exec (.holdCapExpiry c) s =
        .next { s with
          toStation := ({ e with
            events := s.eventsWith { kind := .holdCap, item := r.item, channel := some c,
                                     value := some (r.form.cap.toNat : Int) } }).fireRequest
              (s.settings.channels.get c).chainChannel (s.settings.channels.get c).chainSlot .chain r.item }) ∧
    (r.phase = .hold → s.holds c = false → s.ctl.state ≠ .halted → (s.settings.channels.get c).chained = true →
      exec (.holdCapExpiry c) s =
        .next { s with
          toStation := e.fireRequest (s.settings.channels.get c).chainChannel
                         (s.settings.channels.get c).chainSlot .chain r.item })

/-- AUX_INPUT_CHANGE: the level is taken; a running sequence whose inhibit condition starts to hold is cut with CUT and
no chain; HOLD ends where the hold condition ceases to hold, and its chain is followed outside HALTED; a change that does
neither changes nothing else (R142, R154, R156, R157). Where the same change releases the inhibit condition of the chain
channel, the chained request loads or is dropped with INHIBITED (R161; log 5 leaves the order free). -/
def Obligations.AuxiliaryInputsCutAndRelease : Prop :=
  ∀ (s : State) (n : Fin 4) (level : Bool) (a : State),
    a = { s with pins.aux := s.pins.aux.set n.val level n.isLt } →
    (∃ t, exec (.auxInputChange n level) s = .next t ∧ t.pins = a.pins ∧ t.pending = s.pending ∧
      t.settings = s.settings ∧ t.ctl = s.ctl ∧ t.pos = s.pos ∧ t.link = s.link ∧ t.track = s.track ∧
      t.agenda = s.agenda ∧ t.claims = s.claims ∧ t.claimSeq = s.claimSeq ∧ t.sense = s.sense ∧ t.port = s.port ∧
      ∀ c r, (s.chan c).run = some r →
        (s.inhibits c = false → a.inhibits c = true → (t.chan c).run = none) ∧
        (r.phase = .hold → s.holds c = true → a.holds c = false →
          ∀ r', (t.chan c).run = some r' → r'.phase ≠ .hold)) ∧
    ((∀ c r, (s.chan c).run = some r → (s.inhibits c = true ∨ a.inhibits c = false) ∧
        (r.phase = .hold → s.holds c = false ∨ a.holds c = true)) →
      exec (.auxInputChange n level) s = .next a) ∧
    ∀ c r, (s.chan c).run = some r → (∀ d, d ≠ c → (s.chan d).run = none) →
      (s.inhibits c = false → a.inhibits c = true →
        exec (.auxInputChange n level) s =
          .next { a with channels := s.channels.set c.val { s.chan c with run := none } c.isLt,
                         events := s.eventsWith { kind := .cut, item := r.item, channel := some c,
                                                  reason := some r.phase.code } }) ∧
      (r.phase = .hold → s.holds c = true → a.holds c = false →
        s.ctl.state = .halted ∨ (s.settings.channels.get c).chained = false →
        exec (.auxInputChange n level) s =
          .next { a with channels := s.channels.set c.val { s.chan c with run := none } c.isLt }) ∧
      (r.phase = .hold → s.holds c = true → a.holds c = false → (s.settings.channels.get c).chained = true →
        s.ctl.state ≠ .halted → ∀ (d : Fin 4) (e : Station), d = (s.settings.channels.get c).chainChannel →
        e = { a.toStation with channels := s.channels.set c.val { s.chan c with run := none } c.isLt } →
        (s.inhibits d = a.inhibits d →
          exec (.auxInputChange n level) s =
            .next { a with toStation := e.fireRequest d (s.settings.channels.get c).chainSlot .chain r.item }) ∧
        (s.inhibits d = true → a.inhibits d = false → ∃ k,
          exec (.auxInputChange n level) s =
              .next { a with toStation := { e.fireRequest d (s.settings.channels.get c).chainSlot .chain r.item with
                                            ties := k } } ∨
            exec (.auxInputChange n level) s =
              .next { a with toStation := { e with
                events := e.eventsWith { kind := .inhibited, item := r.item, channel := some d, reason := some 2 }
                ties := k } }))

/-- COMMIT_FORM sets the slot's commit-pending flag, and RESULT carries the flag as it stood; arguments out of range are
refused (R146). -/
def Obligations.CommitFormSetsTheFlag : Prop :=
  (∀ (s : State) (c : Fin 4) (sl : Slot), s.port.args.r0.toNat = c.val →
    s.port.args.r1 = (match sl with | .a => 0 | .b => 1) →
    ∃ t, exec .commitForm s = .next t ∧
      t = { s with channels := t.channels,
                   port := s.port.answered 9 .done (if ((s.chan c).slot sl).pending then 1 else 0) } ∧
      (∀ d, d ≠ c → t.chan d = s.chan d) ∧ (t.chan c).run = (s.chan c).run ∧
      (t.chan c).slot sl = { (s.chan c).slot sl with pending := true } ∧
      ∀ sl', sl' ≠ sl → (t.chan c).slot sl' = (s.chan c).slot sl') ∧
    ∀ s : State, 3 < s.port.args.r0.toNat ∨ 1 < s.port.args.r1.toNat →
      exec .commitForm s = .next { s with port := s.port.answered 9 .refusedArg 0 }

/-- The level of each output pin follows from the sequence state through the polarity, in every state of the station,
and every pin is low after device reset (R143). -/
def Obligations.OutputsFollowPhaseAndPolarity : Prop :=
  (∀ (s : Station) (c : Fin 4),
    ((s.settings.channels.get c).polarity = .activeHigh →
      (s.outputPin c = true ↔ ∃ r, (s.chan c).run = some r ∧ (r.phase = .high ∨ r.phase = .hold))) ∧
    ((s.settings.channels.get c).polarity = .activeLow →
      (s.outputPin c = false ↔ ∃ r, (s.chan c).run = some r ∧ (r.phase = .high ∨ r.phase = .hold)))) ∧
    ∀ (levels : InputLevels) (ties : Nat) (c : Fin 4), (Station.resetAt levels ties).outputPin c = false

/-! ## Event records (Chapter 9) -/

/-- A record joins the back of a queue that has room, with the position as it stands and its lost-after flag clear; in a
full queue it is lost and sets the newest record's flag alone. POP_EVENT takes the oldest into the record registers or
answers EMPTY, and ATTN follows the count and the threshold (R164, R168 to R171). The code sets of the reasons, and the
value and cause of a STATE_CHANGE, are spelled out (R27, R166, R167). -/
def Obligations.EventsQueueAndPop : Prop :=
  (∀ (s : Station) (f : EventFields), s.events.length < 32 →
    s.addRecord f = { s with events := s.events ++ [{ fields := f, pos := s.pos.count, lostAfter := false }] }) ∧
    (∀ (s : Station) (f : EventFields) (es : List EventRecord) (e : EventRecord), 32 ≤ s.events.length →
      s.events = es ++ [e] → s.addRecord f = { s with events := es ++ [{ e with lostAfter := true }] }) ∧
    (∀ (s : State) (e : EventRecord) (es : List EventRecord), s.events = e :: es →
      exec .popEvent s =
        .next { s with events := es, port := { s.port.answered 10 .done 0 with record := e.record } }) ∧
    (∀ s : State, s.events = [] →
      exec .popEvent s =
        .next { s with port := { s.port.answered 10 .empty 0 with record := { r0 := 0, r1 := 0, r2 := 0, r3 := 0 } } }) ∧
    (∀ s : Station, s.attn = true ↔ s.settings.attnThreshold.toNat ≤ s.events.length) ∧
    (∀ number : StationState → Int,
      number = (fun st => match st with
        | .halted => 0 | .joining => 1 | .settling => 2 | .active => 3 | .drifted => 4 | .mute => 5) →
      ∀ (left entered : StationState) (cause : Cause),
        stateChange left entered cause =
          { kind := .stateChange, value := some (8 * number left + number entered),
            reason := some (match cause with
              | .start => 1 | .joinFrame => 2 | .joinTimeout => 3 | .settled => 4 | .skew => 5 | .resolved => 6
              | .sendFailures => 7 | .goodRun => 8 | .resume => 9 | .stop => 10) }) ∧
    (∀ r : FaultReason, r.code = match r with | .kind => 1 | .short => 2 | .check => 3) ∧
    (∀ r : LossReason, r.code = match r with
      | .state => 1 | .precheck => 2 | .sendFailed => 3 | .flushed => 4 | .late => 5 | .far => 6 | .dup => 7
      | .clash => 8 | .full => 9) ∧
    (∀ r : Source, r.code = match r with | .agenda => 1 | .chain => 2 | .force => 3) ∧
    (∀ p : Phase, p.code = match p with | .delay => 1 | .high => 2 | .low => 3 | .hold => 4) ∧
    ∀ p : Payload, p.kind.code = match p with
      | .sight _ _ _ _ => 0 | .verdict _ _ => 1 | .yield _ => 2 | .claim _ _ _ _ => 3 | .retire _ => 4 | .mark => 7

/-! ## The service port (Chapter 10) -/

/-- TABLE_SEL, REGISTER_WRITE and VOID_TRANSACTION: a taken TABLE_SEL write keeps collection and index and loads the
record, codes 5 to 7 are refused, ARG0 to ARG3 are plain storage, read-only registers and unassigned numbers are
refused, and a void type reaches nothing (R177, R178, R182). The six bytes of a low period of CSn, most significant byte
of the word first, are one transaction, whatever bytes follow; fewer than six are abandoned and change nothing; and the
command they carry does what the transaction does by its type byte, with the captured word on MISO in bytes 2 to 5 (R175,
R176). The record loaded is the one at the index, and all zero at or beyond the count (R182). A read returns
the words of R178 and leaves the rest as it stands (STATUS, POSITION and FILL as RegisterAndRecordLayouts gives them), with
RESULT in the layout of R180 and the codes of R181, and 0 from an unassigned number. Two points are the model's
choice: a register read is carried as VOID_TRANSACTION with type byte 0 (log 16), and a whole transaction puts its command
into the queue, with MISO given byte by byte beside it (log 21). -/
def Obligations.RegisterWritesByNumber : Prop :=
  (∀ (s : State) (bytes : List (BitVec 8)), bytes.length < 6 → s.receiveBytes bytes = s) ∧
  (∀ (s : State) (type number b2 b3 b4 b5 : BitVec 8) (rest : List (BitVec 8)) (x : Word) (c : Instr),
    x.toNat = b2.toNat * 2 ^ 24 + b3.toNat * 2 ^ 16 + b4.toNat * 2 ^ 8 + b5.toNat →
    c = commandOfTransaction type number x →
    s.receiveBytes (type :: number :: b2 :: b3 :: b4 :: b5 :: rest) = { s with pending := s.pending ++ [c] } ∧
    (type ≠ 0 → c.wellFormed = true) ∧
    exec c s = .next { s with
      toStation :=
        if type = 0 then s.registerRead number else if type = 1 then s.registerWrite number x
        else if type = 2 then s.configRead number else if type = 3 then s.configWrite number x
        else { s.toStation with port.access := .refusedVoid, port.miso := 0 } } ∧
    s.registerRead number = { s.toStation with port.miso := s.registerWord number } ∧
    (∀ k, k < 2 ∨ 5 < k → s.misoByte type number k = 0) ∧
    (s.misoByte type number 2 ++ s.misoByte type number 3 ++ s.misoByte type number 4 ++
        s.misoByte type number 5 : BitVec 32) =
      (if type = 0 then s.registerWord number else if type = 2 then s.itemWord (itemOf number) else 0)) ∧
  (∀ (s : Station) (k : Nat),
    (∀ i, s.track[k]? = some i → s.recordAt .track k = i.record) ∧
    (∀ e, s.agenda[k]? = some e → s.recordAt .agenda k = e.record) ∧
    (∀ c, s.claims[k]? = some c → s.recordAt .claims k = c.record) ∧
    (∀ e, s.link.txq[k]? = some e → s.recordAt .txq k = e.record) ∧
    (∀ e, s.events[k]? = some e → s.recordAt .events k = e.record) ∧
    ∀ c : Collection, (match c with
        | .track => s.track.length | .agenda => s.agenda.length | .claims => s.claims.length
        | .txq => s.link.txq.length | .events => s.events.length) ≤ k →
      s.recordAt c k = { r0 := 0, r1 := 0, r2 := 0, r3 := 0 }) ∧
  (∀ s : Station,
    s.registerWord 0 = 0x03200101#32 ∧ (s.registerWord 3).toNat = s.port.command.toNat ∧
    s.registerWord 4 = s.port.args.r0 ∧ s.registerWord 5 = s.port.args.r1 ∧ s.registerWord 6 = s.port.args.r2 ∧
    s.registerWord 7 = s.port.args.r3 ∧
    (s.registerWord 8).toNat =
      (match s.port.result.code with
        | .done => 0 | .refusedState => 1 | .refusedFull => 2 | .refusedArg => 3 | .notFound => 4 | .empty => 5
        | .refusedOffset => 6 | .refusedWindow => 7 | .refusedChain => 8 | .inhibited => 9 | .collision => 10) +
        2 ^ 8 * s.port.result.command.toNat + 2 ^ 16 * s.port.result.detail.toNat ∧
    (s.registerWord 9).toNat =
      (match s.port.sel.collection with | .track => 0 | .agenda => 1 | .claims => 2 | .txq => 3 | .events => 4) +
        2 ^ 8 * s.port.sel.index.toNat ∧
    s.registerWord 10 = s.port.record.r0 ∧ s.registerWord 11 = s.port.record.r1 ∧
    s.registerWord 12 = s.port.record.r2 ∧ s.registerWord 13 = s.port.record.r3 ∧ s.registerWord 15 = 0 ∧
    ∀ n : BitVec 8, 16 ≤ n.toNat → s.registerWord n = 0) ∧
  ∀ (s : State) (x : Word),
    (∀ (c : Collection) (n : BitVec 8),
      x.extractLsb' 0 3 = (match c with
        | .track => 0#3 | .agenda => 1#3 | .claims => 2#3 | .txq => 3#3 | .events => 4#3) → x.extractLsb' 8 8 = n →
      exec (.tableSel x) s =
        .next { s with port.sel := { collection := c, index := n }, port.record := s.recordAt c n.toNat,
                       port.access := .ok, port.miso := 0 }) ∧
    (5 ≤ (x.extractLsb' 0 3).toNat →
      exec (.tableSel x) s = .next { s with port.access := .refusedRange, port.miso := 0 }) ∧
    exec (.registerWrite 4 x) s = .next { s with port.args.r0 := x, port.access := .ok, port.miso := 0 } ∧
    exec (.registerWrite 5 x) s = .next { s with port.args.r1 := x, port.access := .ok, port.miso := 0 } ∧
    exec (.registerWrite 6 x) s = .next { s with port.args.r2 := x, port.access := .ok, port.miso := 0 } ∧
    exec (.registerWrite 7 x) s = .next { s with port.args.r3 := x, port.access := .ok, port.miso := 0 } ∧
    (∀ n ∈ ([0, 1, 2, 8, 10, 11, 12, 13, 14] : List (BitVec 8)),
      exec (.registerWrite n x) s = .next { s with port.access := .refusedFixed, port.miso := 0 }) ∧
    (∀ n : BitVec 8, 16 ≤ n.toNat →
      exec (.registerWrite n x) s = .next { s with port.access := .refusedVoid, port.miso := 0 }) ∧
    ∀ type number : BitVec 8, 4 ≤ type.toNat →
      exec (.voidTransaction type number x) s = .next { s with port.access := .refusedVoid, port.miso := 0 }

/-- STATUS, POSITION and FILL show the present values in their layouts, for collections within their capacities (R179),
and the records of the five collections have theirs (R183, R184); POP_EVENT and a TABLE_SEL write of EVENTS load the same
layout (R184). The state numbers (R179), the access codes (R177) and the event kind codes (R165) are spelled out. A word is
given as the sum of its fields, each at its lowest bit, so that its other bits are 0. -/
def Obligations.RegisterAndRecordLayouts : Prop :=
  (∀ i : Item,
    i.record.r0.toNat = 2 ^ 31 + 2 ^ 8 * i.tag.origin.toNat + i.tag.seq.toNat ∧
    i.record.r1.toNat = i.sighting.toNat ∧
    i.record.r2.toNat =
      i.lane.toNat + 2 ^ 4 * i.cls.toNat +
        2 ^ 8 * (match i.verdict with | .undecided => 0 | .pass => 1 | .reject => 2) +
        (match i.source with | none => 0 | some o => 2 ^ 15 + 2 ^ 16 * o.toNat) ∧
    i.record.r3 = 0) ∧
  (∀ e : Entry,
    e.record.r0.toNat = 2 ^ 31 + e.fire.toNat ∧
    e.record.r1.toNat = 2 ^ 16 * e.template.val + 2 ^ 8 * e.item.origin.toNat + e.item.seq.toNat ∧
    e.record.r2.toNat = (match e.claim with
      | .none => 0 | .wanted q => 1 + 2 ^ 8 + 2 ^ 16 * q.toNat | .held q => 2 + 2 ^ 8 + 2 ^ 16 * q.toNat | .lost => 3) ∧
    e.record.r3 = 0) ∧
  (∀ c : Claim,
    c.record.r0.toNat = 2 ^ 31 + 2 ^ 16 * c.group.toNat + 2 ^ 8 * c.tag.origin.toNat + c.tag.seq.toNat ∧
    c.record.r1.toNat = c.start.toNat ∧ c.record.r2.toNat = c.length.toNat ∧
    c.record.r3.toNat = (c.start.toNat + c.length.toNat) % 2 ^ 24) ∧
  (∀ e : TxEntry, e.attempts < 4 →
    e.record.r0.toNat =
      2 ^ 31 + 2 ^ 30 * e.inFlight.toNat +
        2 ^ 24 * (match e.payload with
          | .sight _ _ _ _ => 0 | .verdict _ _ => 1 | .yield _ => 2 | .claim _ _ _ _ => 3 | .retire _ => 4
          | .mark => 7) +
        2 ^ 20 * e.attempts +
        2 ^ 16 * (match e.origin with | .sensor => 0 | .agenda => 1 | .host => 2 | .link => 3) ∧
    e.record.r1.toNat = (match e.payload with
      | .sight q _ lane cls => q.toNat + 2 ^ 8 * lane.toNat + 2 ^ 12 * cls.toNat
      | .verdict item v => 2 ^ 8 * item.origin.toNat + item.seq.toNat + 2 ^ 16 * v.toNat
      | .retire item => 2 ^ 8 * item.origin.toNat + item.seq.toNat
      | .yield q => q.toNat
      | .claim q group _ _ => q.toNat + 2 ^ 8 * group.toNat
      | .mark => 0) ∧
    e.record.r2.toNat = (match e.payload with
      | .sight _ p _ _ => p.toNat | .claim _ _ p _ => p.toNat | .verdict _ _ => 0 | .retire _ => 0 | .yield _ => 0
      | .mark => 0) ∧
    e.record.r3.toNat = (match e.payload with
      | .claim _ _ _ l => l.toNat | .sight _ _ _ _ => 0 | .verdict _ _ => 0 | .retire _ => 0 | .yield _ => 0
      | .mark => 0)) ∧
  (∀ e : EventRecord,
    e.record.r0.toNat =
      2 ^ 31 + 2 ^ 30 * e.lostAfter.toNat +
        2 ^ 24 * (match e.fields.kind with
          | .stateChange => 1 | .aligned => 2 | .skew => 3 | .skewSender => 4 | .realigned => 5 | .frameFault => 6
          | .bitClash => 7 | .sendFailed => 8 | .dupStation => 9 | .txqFull => 10 | .sightLost => 11
          | .badSight => 12 | .staleSight => 13 | .dupTag => 14 | .trackFull => 15 | .verdictUnknown => 16
          | .badVerdict => 17 | .agendaFull => 18 | .lateDrop => 19 | .lateFire => 20 | .skippedDrift => 21
          | .noWindow => 22 | .windowLost => 23 | .orphanYield => 24 | .fired => 25 | .collision => 26
          | .inhibited => 27 | .cut => 28 | .holdCap => 29) +
        e.pos.toNat ∧
    e.record.r1.toNat =
      (match e.fields.item with | none => 0 | some i => 2 ^ 31 + 2 ^ 8 * i.origin.toNat + i.seq.toNat) +
        (match e.fields.template with | none => 0 | some n => 2 ^ 30 + 2 ^ 16 * n.val) +
        (match e.fields.channel with | none => 0 | some n => 2 ^ 29 + 2 ^ 20 * n.val) +
        2 ^ 28 * e.fields.station.isSome.toNat + 2 ^ 27 * e.fields.claim.isSome.toNat +
        2 ^ 26 * e.fields.value.isSome.toNat + 2 ^ 25 * e.fields.reason.isSome.toNat ∧
    e.record.r2.toNat =
      (match e.fields.claim with | none => 0 | some c => 2 ^ 8 * c.origin.toNat + c.seq.toNat) +
        (match e.fields.station with | none => 0 | some o => 2 ^ 16 * o.toNat) +
        (match e.fields.reason with | none => 0 | some r => 2 ^ 24 * r.toNat) ∧
    e.record.r3 = (match e.fields.value with | none => 0 | some v => BitVec.ofInt 32 v) ∧
    1 ≤ e.fields.kind.code.toNat ∧ e.fields.kind.code.toNat ≤ 29) ∧
  (∀ (s : State) (e : EventRecord) (es : List EventRecord), s.events = e :: es →
    ∃ t, exec .popEvent s = .next t ∧ t.port.record = e.record) ∧
  (∀ (s : State) (x : Word) (e : EventRecord), x.extractLsb' 0 3 = 4 →
    s.events[(x.extractLsb' 8 8).toNat]? = some e → ∃ t, exec (.tableSel x) s = .next t ∧ t.port.record = e.record) ∧
  ∀ s : Station, s.WithinCapacities →
    (s.registerWord 1).extractLsb' 0 3 =
      (match s.ctl.state with
        | .halted => 0#3 | .joining => 1#3 | .settling => 2#3 | .active => 3#3 | .drifted => 4#3 | .mute => 5#3) ∧
    (s.registerWord 1).extractLsb' 4 3 =
      (match s.ctl.resume with | none => 7#3 | some .settling => 2#3 | some .active => 3#3) ∧
    (s.registerWord 1).extractLsb' 8 3 =
      (match s.port.access with
        | .ok => 0#3 | .refusedState => 1#3 | .refusedRange => 2#3 | .refusedFixed => 3#3 | .refusedVoid => 4#3) ∧
    ((s.registerWord 1).extractLsb' 16 6).toNat = s.events.length ∧ (s.registerWord 1).getLsbD 24 = s.attn ∧
    s.registerWord 1 &&& 0xFEC0F888#32 = 0 ∧
    (s.registerWord 2).extractLsb' 0 24 = s.pos.count ∧
    (s.registerWord 2).getLsbD 24 = decide (s.pos.dir = .reverse) ∧ s.registerWord 2 &&& 0xFE000000#32 = 0 ∧
    ((s.registerWord 14).extractLsb' 0 6).toNat = s.track.length ∧
    ((s.registerWord 14).extractLsb' 6 7).toNat = s.agenda.length ∧
    ((s.registerWord 14).extractLsb' 13 6).toNat = s.claims.length ∧
    ((s.registerWord 14).extractLsb' 19 5).toNat = s.link.txq.length ∧
    ((s.registerWord 14).extractLsb' 24 6).toNat = s.events.length ∧ s.registerWord 14 &&& 0xC0000000#32 = 0

/-- CONFIG_READ of every item, and the refusals of CONFIG_WRITE in the order of R185: VOID, FIXED, LOCKED outside HALTED,
and a field out of range (R185 to R188). The class of each number is as the tables of R186 to R188 give it. -/
def Obligations.ConfigurationReadsAndRefusals : Prop :=
  (∀ n : BitVec 8, (itemOf n).itemClass =
    if n.toNat = 0 then .fixed
    else if n.toNat ≤ 9 then .locked
    else if n.toNat = 10 then .live
    else if n.toNat ≤ 15 then .void
    else if n.toNat ≤ 31 then (if n.toNat % 4 ≤ 1 then .locked else .void)
    else if n.toNat ≤ 95 then .locked
    else if n.toNat ≤ 127 then (if n.toNat % 8 = 0 then .locked else if n.toNat % 8 = 7 then .void else .live)
    else .void) ∧
  ∀ (s : State) (n : BitVec 8) (x : Word),
    ((itemOf n).itemClass = .void →
      exec (.configRead n) s = .next { s with port.access := .refusedVoid, port.miso := 0 } ∧
      exec (.configWrite n x) s = .next { s with port.access := .refusedVoid, port.miso := 0 }) ∧
    ((itemOf n).itemClass ≠ .void →
      exec (.configRead n) s = .next { s with port.access := .ok, port.miso := s.itemWord (itemOf n) }) ∧
    ((itemOf n).itemClass = .fixed →
      exec (.configWrite n x) s = .next { s with port.access := .refusedFixed, port.miso := 0 }) ∧
    ((itemOf n).itemClass = .locked → s.ctl.state ≠ .halted →
      exec (.configWrite n x) s = .next { s with port.access := .refusedState, port.miso := 0 }) ∧
    ((itemOf n).itemClass = .live ∨ (itemOf n).itemClass = .locked ∧ s.ctl.state = .halted →
      (itemOf n).accepts x = false →
      exec (.configWrite n x) s = .next { s with port.access := .refusedRange, port.miso := 0 })

/-- A configuration write that passes the checks gives the item the written word in its fields and leaves every other
item; it changes besides the settings and the forms only what the rules tie to the write: the decoder reference (R4),
the sub-count (R4), and a running sequence whose conditions change (R160). Which setting takes which bits, by the item's
number, is as the tables of R186 to R188 give it; a form item's fields go into the staged copy and in HALTED into the live
copy as well, each keeping its other fields (R145). A write of a channel's settings keeps every
channel and the events while its conditions do not change; an inhibit condition that starts to hold cuts its sequence with
CUT; HOLD whose hold condition ceases ends with no record and no chain. A write that does both to HOLD ends it, with CUT or
with no record: log 23's choice between them is left open. -/
def Obligations.ConfigurationWritesTakeTheWord : Prop :=
  ∀ (s : State) (n : BitVec 8) (x : Word),
    ((itemOf n).itemClass = .live ∨ (itemOf n).itemClass = .locked ∧ s.ctl.state = .halted) →
    (itemOf n).accepts x = true →
    ∃ t, exec (.configWrite n x) s = .next t ∧ t.port = { s.port with access := .ok, miso := 0 } ∧
      t.itemWord (itemOf n) = x &&& (itemOf n).fieldMask ∧
      (∀ i : ConfigItem, i ≠ itemOf n → t.itemWord i = s.itemWord i) ∧
      t.pending = s.pending ∧ t.pins = s.pins ∧ t.link = s.link ∧ t.ctl = s.ctl ∧ t.sense = s.sense ∧
      t.track = s.track ∧ t.agenda = s.agenda ∧ t.claims = s.claims ∧ t.claimSeq = s.claimSeq ∧
      t.pos = { s.pos with ref := if itemOf n = .encoderMode then s.pins.enc else s.pos.ref,
                           sub := if itemOf n = .prescale then 0 else s.pos.sub } ∧
      ((∀ c, itemOf n ≠ .channelSettings c) → t.events = s.events ∧ ∀ c, (t.chan c).run = (s.chan c).run) ∧
      (∀ c sl, ((t.chan c).slot sl).pending = ((s.chan c).slot sl).pending) ∧
      (s.ctl.state ≠ .halted → ∀ c sl, ((t.chan c).slot sl).live = ((s.chan c).slot sl).live) ∧
      (s.ctl.state = .halted → ∀ c sl, ((s.chan c).slot sl).live = ((s.chan c).slot sl).staged →
        ((t.chan c).slot sl).live = ((t.chan c).slot sl).staged) ∧
      (n = 1 → t.settings = { s.settings with stationNumber := x.extractLsb' 0 5 }) ∧
      (n = 2 → t.settings = { s.settings with
        bitRate := if x = 0 then .kbit125 else if x = 1 then .kbit250 else if x = 2 then .kbit500 else .kbit1000 }) ∧
      (n = 3 → t.settings = { s.settings with
        encoderMode := if x = 0 then .quad4 else if x = 1 then .quad1 else .pulseDir }) ∧
      (n = 4 → t.settings = { s.settings with
        prescale := if x = 1 then .by1 else if x = 2 then .by2 else if x = 4 then .by4 else .by8 }) ∧
      (n = 5 → t.settings = { s.settings with skewTolerance := x.extractLsb' 0 8 }) ∧
      (n = 6 → t.settings = { s.settings with joinWait := x.extractLsb' 0 16 }) ∧
      (n = 7 → t.settings = { s.settings with markInterval := x.extractLsb' 0 14 }) ∧
      (n = 8 → t.settings = { s.settings with trackHorizon := x.extractLsb' 0 22 }) ∧
      (n = 9 → t.settings = { s.settings with claimHorizon := x.extractLsb' 0 22 }) ∧
      (n = 10 → t.settings = { s.settings with attnThreshold := x.extractLsb' 0 6 }) ∧
      (∀ (k : Fin 4) (b : SensorSettings) (put : SensorSettings → Settings), b = s.settings.sensors.get k →
        put = (fun c => { s.settings with sensors := s.settings.sensors.set k.val c k.isLt }) →
        (n.toNat = 16 + 4 * k.val → t.settings = put { b with
          enabled := x.getLsbD 0, edge := if x.getLsbD 1 then .falling else .rising, lane := x.extractLsb' 4 2,
          cls := x.extractLsb' 8 4 }) ∧
        (n.toNat = 17 + 4 * k.val → t.settings = put { b with gap := x.extractLsb' 0 16 })) ∧
      (∀ (k : Fin 16) (b : Template) (put : Template → Settings), b = s.settings.templates.get k →
        put = (fun c => { s.settings with templates := s.settings.templates.set k.val c k.isLt }) →
        (n.toNat = 32 + 4 * k.val → t.settings = put { b with origins := x }) ∧
        (n.toNat = 33 + 4 * k.val → t.settings = put { b with
          enabled := x.getLsbD 0, lanes := x.extractLsb' 4 4, channel := (x.extractLsb' 8 2).toFin,
          slot := if x.getLsbD 10 then .b else .a, report := x.getLsbD 15, classes := x.extractLsb' 16 16
          condition := match (x.extractLsb' 12 3).toNat with
            | 0 => .any | 1 => .pass | 2 => .reject | 3 => .notReject | _ => .undecided }) ∧
        (n.toNat = 34 + 4 * k.val → t.settings = put { b with
          offset := x.extractLsb' 0 16, tolerance := x.extractLsb' 16 8,
          policy := if x.getLsbD 24 then .fireLate else .drop
          group := match (x.extractLsb' 28 4).toNat with | 0 => none | g + 1 => some (BitVec.ofNat 3 g) }) ∧
        (n.toNat = 35 + 4 * k.val → t.settings = put { b with
          lead := x.extractLsb' 0 12, length := x.extractLsb' 16 16 })) ∧
      (∀ k : Fin 4, n.toNat = 96 + 8 * k.val → t.settings = { s.settings with
        channels := s.settings.channels.set k.val
          { polarity := if x.getLsbD 0 then .activeLow else .activeHigh
            role := match (x.extractLsb' 4 2).toNat with | 0 => .none | 1 => .hold | _ => .inhibit
            input := (x.extractLsb' 8 2).toFin, chained := x.getLsbD 12, chainChannel := (x.extractLsb' 13 2).toFin
            chainSlot := if x.getLsbD 15 then .b else .a } k.isLt }) ∧
      (n.toNat < 96 → t.channels = s.channels) ∧
      (∀ (k : Fin 4) (sl : Slot) (first : Nat) (put : Form → Form),
        first = 97 + 8 * k.val + (match sl with | .a => 0 | .b => 3) →
        (n.toNat = first ∧ put = (fun b => { b with
            delay := x.extractLsb' 0 16, burst := x.extractLsb' 24 8
            kind := match (x.extractLsb' 16 2).toNat with | 0 => .single | 1 => .burst | _ => .held }) ∨
          n.toNat = first + 1 ∧ put = (fun b => { b with high := x.extractLsb' 0 16, low := x.extractLsb' 16 16 }) ∨
          n.toNat = first + 2 ∧ put = (fun b => { b with cap := x.extractLsb' 0 16 })) →
        t.settings = s.settings ∧ (∀ d, d ≠ k → t.chan d = s.chan d) ∧ (t.chan k).run = (s.chan k).run ∧
        (∀ sl', sl' ≠ sl → (t.chan k).slot sl' = (s.chan k).slot sl') ∧
        (t.chan k).slot sl =
          { live := if s.ctl.state = .halted then put ((s.chan k).slot sl).live else ((s.chan k).slot sl).live
            staged := put ((s.chan k).slot sl).staged, pending := ((s.chan k).slot sl).pending }) ∧
      ∀ c, itemOf n = .channelSettings c →
        (∀ d, d ≠ c → t.chan d = s.chan d) ∧
        ((s.chan c).run = none → t.channels = s.channels ∧ t.events = s.events) ∧
        ∀ r idle cut, (s.chan c).run = some r →
          idle = s.channels.set c.val { s.chan c with run := none } c.isLt →
          cut = s.eventsWith { kind := .cut, item := r.item, channel := some c,
                               reason := some (match r.phase with
                                 | .delay => 1 | .high => 2 | .low => 3 | .hold => 4) } →
          (s.inhibits c = true ∨ t.inhibits c = false → (r.phase = .hold → s.holds c = false ∨ t.holds c = true) →
            t.channels = s.channels ∧ t.events = s.events) ∧
          (s.inhibits c = false → t.inhibits c = true → (r.phase = .hold → s.holds c = false) →
            t.channels = idle ∧ t.events = cut) ∧
          (r.phase = .hold → s.holds c = true → t.holds c = false → t.inhibits c = false →
            t.channels = idle ∧ t.events = s.events) ∧
          (r.phase = .hold → s.holds c = true → t.inhibits c = true →
            t.channels = idle ∧ (t.events = s.events ∨ t.events = cut))

/-! ## Invariants -/

/-- Every step keeps the collections within their capacities (R39, R79, R102, R120, R168) and the counts, the settings
and the channels within their ranges (R5, R38, R39, R45, R144, R147, R185 to R188). -/
def Obligations.EveryStepKeepsTheRanges : Prop :=
  KeptByEveryStep Station.WithinCapacities ∧ KeptByEveryStep Station.LinkCountsInRange ∧
    KeptByEveryStep Station.SubCountInRange ∧ KeptByEveryStep Station.SettingsInRange ∧
    KeptByEveryStep Station.ChannelsInRange

/-- Every step keeps what the line rules say of this station: only the head is in flight and then in SETTLING or ACTIVE,
a frame is driven exactly while the head is in flight, an idle line carries no frame, a HALTED station leaves the line
released, and a MUTE station has driven nothing since the break, if any, of the bit clash that took it there (R23, R25,
R31, R39, R45, R46; the break as what was last driven is log 11's). In MUTE nothing new is driven (R45). -/
def Obligations.EveryStepKeepsTheLineRules : Prop :=
  KeptByEveryStep Station.LineConsistent ∧
    ∀ s t : State, s.LineConsistent → s.ctl.state = .mute → step s = .next t → t.ctl.state = .mute →
      t.link.drive = s.link.drive ∨ t.link.drive = .released

/-- Every step keeps the presence rules of station control, the emptiness of the tables in HALTED and JOINING, and that
a station outside HALTED runs on settings that passed START validation (R22, R41, R42, R45, R49, R50, R53 to R56). -/
def Obligations.EveryStepKeepsStationControl : Prop :=
  KeptByEveryStep (fun s => s.LineConsistent ∧ s.ControlConsistent ∧ s.EmptyOutOfService ∧ s.ValidatedInService)

/-- Every step keeps the agenda's invariant: every fire position is ahead of the position, every entry names an item in
the track table, the entries stand in the order of their distances and, at one fire position, of their template
numbers, and the match register holds the head's fire position (R12, R102). -/
def Obligations.EveryStepKeepsTheAgenda : Prop := KeptByEveryStep Station.AgendaConsistent

/-- Every step keeps the track table's invariant: no two items with the same tag, and a verdict source present exactly
when the verdict is PASS or REJECT; and an item whose verdict has become REJECT keeps verdict REJECT and its source for
as long as it stays in the track table (R78, R79, R86). -/
def Obligations.EveryStepKeepsTheTrackTable : Prop :=
  KeptByEveryStep Station.TrackConsistent ∧
    ∀ (s t : State) (i j : Item), s.TrackConsistent → step s = .next t → i ∈ s.track → i.verdict = .reject →
      j ∈ t.track → j.tag = i.tag → j.verdict = .reject ∧ j.source = i.source

/-- Every step keeps the claims table's invariant: no two claims with the same owner and sequence, and no position that
lies in the windows of two claims of one group (R119, R120). -/
def Obligations.EveryStepKeepsWindowsDisjoint : Prop := KeptByEveryStep Station.ClaimsConsistent

/-- The machine after reset satisfies every invariant. -/
def Obligations.InvariantsHoldAfterReset : Prop :=
  ∀ (levels : InputLevels) (ties : Nat) (s : Station), s = Station.resetAt levels ties →
    s.WithinCapacities ∧ s.LinkCountsInRange ∧ s.SubCountInRange ∧ s.SettingsInRange ∧ s.ChannelsInRange ∧
      s.LineConsistent ∧ s.ControlConsistent ∧ s.EmptyOutOfService ∧ s.ValidatedInService ∧ s.AgendaConsistent ∧
      s.TrackConsistent ∧ s.ClaimsConsistent
end

