-- ==== Sys2Proof/Laws/State.lean ====
section
/-! SUPPORT. The fields of a station after each named update: one lemma per field, true by unfolding one definition. -/

namespace Sys2Proof.Machine

variable (s : Station)
/-! ## `addRecord` -/
@[simp] theorem Station.addRecord_pins (f : EventFields) : (s.addRecord f).pins = s.pins := rfl
@[simp] theorem Station.addRecord_pos (f : EventFields) : (s.addRecord f).pos = s.pos := rfl
@[simp] theorem Station.addRecord_link (f : EventFields) : (s.addRecord f).link = s.link := rfl
@[simp] theorem Station.addRecord_ctl (f : EventFields) : (s.addRecord f).ctl = s.ctl := rfl
@[simp] theorem Station.addRecord_sense (f : EventFields) : (s.addRecord f).sense = s.sense := rfl
@[simp] theorem Station.addRecord_track (f : EventFields) : (s.addRecord f).track = s.track := rfl
@[simp] theorem Station.addRecord_agenda (f : EventFields) : (s.addRecord f).agenda = s.agenda := rfl
@[simp] theorem Station.addRecord_claims (f : EventFields) : (s.addRecord f).claims = s.claims := rfl
@[simp] theorem Station.addRecord_claimSeq (f : EventFields) : (s.addRecord f).claimSeq = s.claimSeq := rfl
@[simp] theorem Station.addRecord_channels (f : EventFields) : (s.addRecord f).channels = s.channels := rfl
@[simp] theorem Station.addRecord_events (f : EventFields) : (s.addRecord f).events = s.eventsWith f := rfl
@[simp] theorem Station.addRecord_port (f : EventFields) : (s.addRecord f).port = s.port := rfl
@[simp] theorem Station.addRecord_settings (f : EventFields) : (s.addRecord f).settings = s.settings := rfl
@[simp] theorem Station.addRecord_ties (f : EventFields) : (s.addRecord f).ties = s.ties := rfl
/-! ## `pushTx` -/
@[simp] theorem Station.pushTx_pins (p : Payload) (o : TxOrigin) : (s.pushTx p o).pins = s.pins := rfl
@[simp] theorem Station.pushTx_pos (p : Payload) (o : TxOrigin) : (s.pushTx p o).pos = s.pos := rfl
@[simp] theorem Station.pushTx_link_txq (p : Payload) (o : TxOrigin) : (s.pushTx p o).link.txq =
    s.link.txq ++ [{ payload := p, attempts := 0, origin := o, inFlight := false }] :=
    rfl
@[simp] theorem Station.pushTx_link_fails (p : Payload) (o : TxOrigin) : (s.pushTx p o).link.fails = s.link.fails :=
    rfl
@[simp] theorem Station.pushTx_link_mark (p : Payload) (o : TxOrigin) : (s.pushTx p o).link.mark = s.link.mark := rfl
@[simp] theorem Station.pushTx_link_goodRun (p : Payload) (o : TxOrigin) : (s.pushTx p o).link.goodRun = s.link.goodRun :=
    rfl
@[simp] theorem Station.pushTx_link_idle (p : Payload) (o : TxOrigin) : (s.pushTx p o).link.idle = s.link.idle := rfl
@[simp] theorem Station.pushTx_link_receiving (p : Payload) (o : TxOrigin) : (s.pushTx p o).link.receiving = s.link.receiving :=
    rfl
@[simp] theorem Station.pushTx_link_drive (p : Payload) (o : TxOrigin) : (s.pushTx p o).link.drive = s.link.drive :=
    rfl
@[simp] theorem Station.pushTx_link_ownTaken (p : Payload) (o : TxOrigin) : (s.pushTx p o).link.ownTaken = s.link.ownTaken :=
    rfl
@[simp] theorem Station.pushTx_ctl (p : Payload) (o : TxOrigin) : (s.pushTx p o).ctl = s.ctl := rfl
@[simp] theorem Station.pushTx_sense (p : Payload) (o : TxOrigin) : (s.pushTx p o).sense = s.sense := rfl
@[simp] theorem Station.pushTx_track (p : Payload) (o : TxOrigin) : (s.pushTx p o).track = s.track := rfl
@[simp] theorem Station.pushTx_agenda (p : Payload) (o : TxOrigin) : (s.pushTx p o).agenda = s.agenda := rfl
@[simp] theorem Station.pushTx_claims (p : Payload) (o : TxOrigin) : (s.pushTx p o).claims = s.claims := rfl
@[simp] theorem Station.pushTx_claimSeq (p : Payload) (o : TxOrigin) : (s.pushTx p o).claimSeq = s.claimSeq := rfl
@[simp] theorem Station.pushTx_channels (p : Payload) (o : TxOrigin) : (s.pushTx p o).channels = s.channels := rfl
@[simp] theorem Station.pushTx_events (p : Payload) (o : TxOrigin) : (s.pushTx p o).events = s.events := rfl
@[simp] theorem Station.pushTx_port (p : Payload) (o : TxOrigin) : (s.pushTx p o).port = s.port := rfl
@[simp] theorem Station.pushTx_settings (p : Payload) (o : TxOrigin) : (s.pushTx p o).settings = s.settings := rfl
@[simp] theorem Station.pushTx_ties (p : Payload) (o : TxOrigin) : (s.pushTx p o).ties = s.ties := rfl
/-! ## `startMark` -/
@[simp] theorem Station.startMark_pins : (s.startMark).pins = s.pins := rfl
@[simp] theorem Station.startMark_pos : (s.startMark).pos = s.pos := rfl
@[simp] theorem Station.startMark_link_txq : (s.startMark).link.txq = s.link.txq := rfl
@[simp] theorem Station.startMark_link_fails : (s.startMark).link.fails = s.link.fails := rfl
@[simp] theorem Station.startMark_link_mark : (s.startMark).link.mark = s.fullMark :=
    by simp [Station.startMark, Station.fullMark, Config.microsPerMilli, Nat.mul_comm]
@[simp] theorem Station.startMark_link_goodRun : (s.startMark).link.goodRun = s.link.goodRun := rfl
@[simp] theorem Station.startMark_link_idle : (s.startMark).link.idle = s.link.idle := rfl
@[simp] theorem Station.startMark_link_receiving : (s.startMark).link.receiving = s.link.receiving := rfl
@[simp] theorem Station.startMark_link_drive : (s.startMark).link.drive = s.link.drive := rfl
@[simp] theorem Station.startMark_link_ownTaken : (s.startMark).link.ownTaken = s.link.ownTaken := rfl
@[simp] theorem Station.startMark_ctl : (s.startMark).ctl = s.ctl := rfl
@[simp] theorem Station.startMark_sense : (s.startMark).sense = s.sense := rfl
@[simp] theorem Station.startMark_track : (s.startMark).track = s.track := rfl
@[simp] theorem Station.startMark_agenda : (s.startMark).agenda = s.agenda := rfl
@[simp] theorem Station.startMark_claims : (s.startMark).claims = s.claims := rfl
@[simp] theorem Station.startMark_claimSeq : (s.startMark).claimSeq = s.claimSeq := rfl
@[simp] theorem Station.startMark_channels : (s.startMark).channels = s.channels := rfl
@[simp] theorem Station.startMark_events : (s.startMark).events = s.events := rfl
@[simp] theorem Station.startMark_port : (s.startMark).port = s.port := rfl
@[simp] theorem Station.startMark_settings : (s.startMark).settings = s.settings := rfl
@[simp] theorem Station.startMark_ties : (s.startMark).ties = s.ties := rfl
/-! ## `stopMark` -/
@[simp] theorem Station.stopMark_pins : (s.stopMark).pins = s.pins := rfl
@[simp] theorem Station.stopMark_pos : (s.stopMark).pos = s.pos := rfl
@[simp] theorem Station.stopMark_link_txq : (s.stopMark).link.txq = s.link.txq := rfl
@[simp] theorem Station.stopMark_link_fails : (s.stopMark).link.fails = s.link.fails := rfl
@[simp] theorem Station.stopMark_link_mark : (s.stopMark).link.mark = .stopped := rfl
@[simp] theorem Station.stopMark_link_goodRun : (s.stopMark).link.goodRun = s.link.goodRun := rfl
@[simp] theorem Station.stopMark_link_idle : (s.stopMark).link.idle = s.link.idle := rfl
@[simp] theorem Station.stopMark_link_receiving : (s.stopMark).link.receiving = s.link.receiving := rfl
@[simp] theorem Station.stopMark_link_drive : (s.stopMark).link.drive = s.link.drive := rfl
@[simp] theorem Station.stopMark_link_ownTaken : (s.stopMark).link.ownTaken = s.link.ownTaken := rfl
@[simp] theorem Station.stopMark_ctl : (s.stopMark).ctl = s.ctl := rfl
@[simp] theorem Station.stopMark_sense : (s.stopMark).sense = s.sense := rfl
@[simp] theorem Station.stopMark_track : (s.stopMark).track = s.track := rfl
@[simp] theorem Station.stopMark_agenda : (s.stopMark).agenda = s.agenda := rfl
@[simp] theorem Station.stopMark_claims : (s.stopMark).claims = s.claims := rfl
@[simp] theorem Station.stopMark_claimSeq : (s.stopMark).claimSeq = s.claimSeq := rfl
@[simp] theorem Station.stopMark_channels : (s.stopMark).channels = s.channels := rfl
@[simp] theorem Station.stopMark_events : (s.stopMark).events = s.events := rfl
@[simp] theorem Station.stopMark_port : (s.stopMark).port = s.port := rfl
@[simp] theorem Station.stopMark_settings : (s.stopMark).settings = s.settings := rfl
@[simp] theorem Station.stopMark_ties : (s.stopMark).ties = s.ties := rfl
/-! ## `changeState` -/
@[simp] theorem Station.changeState_pins (e : StationState) (c : Cause) : (s.changeState e c).pins = s.pins := rfl
@[simp] theorem Station.changeState_pos (e : StationState) (c : Cause) : (s.changeState e c).pos = s.pos := rfl
@[simp] theorem Station.changeState_link (e : StationState) (c : Cause) : (s.changeState e c).link = s.link := rfl
@[simp] theorem Station.changeState_ctl_state (e : StationState) (c : Cause) : (s.changeState e c).ctl.state = e := rfl
@[simp] theorem Station.changeState_ctl_resume (e : StationState) (c : Cause) : (s.changeState e c).ctl.resume = s.ctl.resume :=
    rfl
@[simp] theorem Station.changeState_ctl_join (e : StationState) (c : Cause) : (s.changeState e c).ctl.join = s.ctl.join :=
    rfl
@[simp] theorem Station.changeState_ctl_settleStart (e : StationState) (c : Cause) : (s.changeState e c).ctl.settleStart = s.ctl.settleStart :=
    rfl
@[simp] theorem Station.changeState_sense (e : StationState) (c : Cause) : (s.changeState e c).sense = s.sense := rfl
@[simp] theorem Station.changeState_track (e : StationState) (c : Cause) : (s.changeState e c).track = s.track := rfl
@[simp] theorem Station.changeState_agenda (e : StationState) (c : Cause) : (s.changeState e c).agenda = s.agenda := rfl
@[simp] theorem Station.changeState_claims (e : StationState) (c : Cause) : (s.changeState e c).claims = s.claims := rfl
@[simp] theorem Station.changeState_claimSeq (e : StationState) (c : Cause) : (s.changeState e c).claimSeq = s.claimSeq := rfl
@[simp] theorem Station.changeState_channels (e : StationState) (c : Cause) : (s.changeState e c).channels = s.channels := rfl
@[simp] theorem Station.changeState_events (e : StationState) (c : Cause) : (s.changeState e c).events = s.eventsWith (stateChange s.ctl.state e c) := rfl
@[simp] theorem Station.changeState_port (e : StationState) (c : Cause) : (s.changeState e c).port = s.port := rfl
@[simp] theorem Station.changeState_settings (e : StationState) (c : Cause) : (s.changeState e c).settings = s.settings := rfl
@[simp] theorem Station.changeState_ties (e : StationState) (c : Cause) : (s.changeState e c).ties = s.ties := rfl
/-! ## `setChan` -/
@[simp] theorem Station.setChan_pins (c : Fin 4) (x : Channel) : (s.setChan c x).pins = s.pins := rfl
@[simp] theorem Station.setChan_pos (c : Fin 4) (x : Channel) : (s.setChan c x).pos = s.pos := rfl
@[simp] theorem Station.setChan_link (c : Fin 4) (x : Channel) : (s.setChan c x).link = s.link := rfl
@[simp] theorem Station.setChan_ctl (c : Fin 4) (x : Channel) : (s.setChan c x).ctl = s.ctl := rfl
@[simp] theorem Station.setChan_sense (c : Fin 4) (x : Channel) : (s.setChan c x).sense = s.sense := rfl
@[simp] theorem Station.setChan_track (c : Fin 4) (x : Channel) : (s.setChan c x).track = s.track := rfl
@[simp] theorem Station.setChan_agenda (c : Fin 4) (x : Channel) : (s.setChan c x).agenda = s.agenda := rfl
@[simp] theorem Station.setChan_claims (c : Fin 4) (x : Channel) : (s.setChan c x).claims = s.claims := rfl
@[simp] theorem Station.setChan_claimSeq (c : Fin 4) (x : Channel) : (s.setChan c x).claimSeq = s.claimSeq := rfl
@[simp] theorem Station.setChan_channels (c : Fin 4) (x : Channel) : (s.setChan c x).channels = s.channels.set c.val x c.isLt := rfl
@[simp] theorem Station.setChan_events (c : Fin 4) (x : Channel) : (s.setChan c x).events = s.events := rfl
@[simp] theorem Station.setChan_port (c : Fin 4) (x : Channel) : (s.setChan c x).port = s.port := rfl
@[simp] theorem Station.setChan_settings (c : Fin 4) (x : Channel) : (s.setChan c x).settings = s.settings := rfl
@[simp] theorem Station.setChan_ties (c : Fin 4) (x : Channel) : (s.setChan c x).ties = s.ties := rfl
/-! ## `loadMatch` -/
@[simp] theorem Station.loadMatch_pins : (s.loadMatch).pins = s.pins := rfl
@[simp] theorem Station.loadMatch_pos_count : (s.loadMatch).pos.count = s.pos.count := rfl
@[simp] theorem Station.loadMatch_pos_sub : (s.loadMatch).pos.sub = s.pos.sub := rfl
@[simp] theorem Station.loadMatch_pos_dir : (s.loadMatch).pos.dir = s.pos.dir := rfl
@[simp] theorem Station.loadMatch_pos_ref : (s.loadMatch).pos.ref = s.pos.ref := rfl
@[simp] theorem Station.loadMatch_pos_capture : (s.loadMatch).pos.capture = s.pos.capture := rfl
@[simp] theorem Station.loadMatch_pos_matchReg : (s.loadMatch).pos.matchReg = s.agenda.head?.map Entry.fire := rfl
@[simp] theorem Station.loadMatch_pos_suspect : (s.loadMatch).pos.suspect = s.pos.suspect := rfl
@[simp] theorem Station.loadMatch_link : (s.loadMatch).link = s.link := rfl
@[simp] theorem Station.loadMatch_ctl : (s.loadMatch).ctl = s.ctl := rfl
@[simp] theorem Station.loadMatch_sense : (s.loadMatch).sense = s.sense := rfl
@[simp] theorem Station.loadMatch_track : (s.loadMatch).track = s.track := rfl
@[simp] theorem Station.loadMatch_agenda : (s.loadMatch).agenda = s.agenda := rfl
@[simp] theorem Station.loadMatch_claims : (s.loadMatch).claims = s.claims := rfl
@[simp] theorem Station.loadMatch_claimSeq : (s.loadMatch).claimSeq = s.claimSeq := rfl
@[simp] theorem Station.loadMatch_channels : (s.loadMatch).channels = s.channels := rfl
@[simp] theorem Station.loadMatch_events : (s.loadMatch).events = s.events := rfl
@[simp] theorem Station.loadMatch_port : (s.loadMatch).port = s.port := rfl
@[simp] theorem Station.loadMatch_settings : (s.loadMatch).settings = s.settings := rfl
@[simp] theorem Station.loadMatch_ties : (s.loadMatch).ties = s.ties := rfl
/-! ## `portAnswers` -/
@[simp] theorem Station.portAnswers_pins (a : Access) (m : Word) : (s.portAnswers a m).pins = s.pins := rfl
@[simp] theorem Station.portAnswers_pos (a : Access) (m : Word) : (s.portAnswers a m).pos = s.pos := rfl
@[simp] theorem Station.portAnswers_link (a : Access) (m : Word) : (s.portAnswers a m).link = s.link := rfl
@[simp] theorem Station.portAnswers_ctl (a : Access) (m : Word) : (s.portAnswers a m).ctl = s.ctl := rfl
@[simp] theorem Station.portAnswers_sense (a : Access) (m : Word) : (s.portAnswers a m).sense = s.sense := rfl
@[simp] theorem Station.portAnswers_track (a : Access) (m : Word) : (s.portAnswers a m).track = s.track := rfl
@[simp] theorem Station.portAnswers_agenda (a : Access) (m : Word) : (s.portAnswers a m).agenda = s.agenda := rfl
@[simp] theorem Station.portAnswers_claims (a : Access) (m : Word) : (s.portAnswers a m).claims = s.claims := rfl
@[simp] theorem Station.portAnswers_claimSeq (a : Access) (m : Word) : (s.portAnswers a m).claimSeq = s.claimSeq := rfl
@[simp] theorem Station.portAnswers_channels (a : Access) (m : Word) : (s.portAnswers a m).channels = s.channels := rfl
@[simp] theorem Station.portAnswers_events (a : Access) (m : Word) : (s.portAnswers a m).events = s.events := rfl
@[simp] theorem Station.portAnswers_port_access (a : Access) (m : Word) : (s.portAnswers a m).port.access = a := rfl
@[simp] theorem Station.portAnswers_port_command (a : Access) (m : Word) : (s.portAnswers a m).port.command = s.port.command :=
    rfl
@[simp] theorem Station.portAnswers_port_args (a : Access) (m : Word) : (s.portAnswers a m).port.args = s.port.args :=
    rfl
@[simp] theorem Station.portAnswers_port_result (a : Access) (m : Word) : (s.portAnswers a m).port.result = s.port.result :=
    rfl
@[simp] theorem Station.portAnswers_port_sel (a : Access) (m : Word) : (s.portAnswers a m).port.sel = s.port.sel := rfl
@[simp] theorem Station.portAnswers_port_record (a : Access) (m : Word) : (s.portAnswers a m).port.record = s.port.record :=
    rfl
@[simp] theorem Station.portAnswers_port_miso (a : Access) (m : Word) : (s.portAnswers a m).port.miso = m := rfl
@[simp] theorem Station.portAnswers_settings (a : Access) (m : Word) : (s.portAnswers a m).settings = s.settings := rfl
@[simp] theorem Station.portAnswers_ties (a : Access) (m : Word) : (s.portAnswers a m).ties = s.ties := rfl

end Sys2Proof.Machine
end

