-- ==== Sys2Proof/Laws/Ops.lean ====
section
/-! SUPPORT. What the shared operations do: the transmit queue's back end, channels by number, ranked order and choices
between events that fall together. -/

namespace Sys2Proof.Machine

/-! ## Commands -/

theorem State.advance_eq (f : Station → Station) (s : State) :
    s.advance f = .next { s with toStation := f s.toStation } := rfl

/-! ## The transmit queue -/

theorem Station.enqueue_of_room {s : Station} (h : s.link.txq.length < 16) (p : Payload) (o : TxOrigin) :
    s.enqueue p o = s.pushTx p o := by
  simp [Station.enqueue, Station.txFull, Config.txqCapacity, Nat.not_le.mpr h]

theorem Station.enqueue_of_full {s : Station} (h : 16 ≤ s.link.txq.length) (p : Payload) (o : TxOrigin) :
    s.enqueue p o = s.addRecord (frameFields .txqFull s.settings.stationNumber p) := by
  simp [Station.enqueue, Station.txFull, Config.txqCapacity, h]

/-- An enqueue changes the queue and the event records alone. -/
theorem Station.enqueue_frame (s : Station) (p : Payload) (o : TxOrigin) :
    ∃ q ev, s.enqueue p o = { s with link.txq := q, events := ev } := by
  unfold Station.enqueue
  split
  · exact ⟨s.link.txq, _, rfl⟩
  · exact ⟨_, s.events, rfl⟩

/-! ## Event records -/

theorem pushEvent_of_room {q : List EventRecord} (h : q.length < 32) (e : EventRecord) : pushEvent e q = q ++ [e] := by
  simp [pushEvent, Config.eventCapacity, h]

theorem pushEvent_of_full {q : List EventRecord} (h : 32 ≤ q.length) (e : EventRecord) :
    pushEvent e q = markNewest q := by
  simp [pushEvent, Config.eventCapacity, Nat.not_lt.mpr h]

theorem markNewest_append (q : List EventRecord) (e : EventRecord) :
    markNewest (q ++ [e]) = q ++ [{ e with lostAfter := true }] := by
  induction q with
  | nil => rfl
  | cons a q ih =>
    cases q with
    | nil => rfl
    | cons b q => simpa [markNewest] using ih

@[simp] theorem markNewest_length (q : List EventRecord) : (markNewest q).length = q.length := by
  induction q using markNewest.induct with
  | case1 => rfl
  | case2 => rfl
  | case3 e f es ih => simpa [markNewest] using ih

theorem pushEvent_length_le {q : List EventRecord} (h : q.length ≤ 32) (e : EventRecord) :
    (pushEvent e q).length ≤ 32 := by
  unfold pushEvent Config.eventCapacity
  split
  · simp; omega
  · simpa using h

/-! ## Channels by number -/

/-- Reading a vector by number is reading its element. -/
theorem get_eq_getElem {α : Type} {n : Nat} (v : Vector α n) (i : Fin n) : v.get i = v[i.val] := rfl

theorem get_set_same {α : Type} {n : Nat} (v : Vector α n) (i : Fin n) (x : α) : (v.set i.val x i.isLt).get i = x := by
  rw [get_eq_getElem, Vector.getElem_set_self]

theorem get_set_other {α : Type} {n : Nat} (v : Vector α n) {i j : Fin n} (h : j ≠ i) (x : α) :
    (v.set i.val x i.isLt).get j = v.get j := by
  rw [get_eq_getElem, Vector.getElem_set_ne _ _ (fun e => h (Fin.ext e.symm)), get_eq_getElem]

theorem get_map {α β : Type} {n : Nat} (f : α → β) (v : Vector α n) (i : Fin n) : (v.map f).get i = f (v.get i) := by
  rw [get_eq_getElem, Vector.getElem_map, get_eq_getElem]

@[simp] theorem Station.chan_setChan_same (s : Station) (c : Fin 4) (x : Channel) : (s.setChan c x).chan c = x :=
  get_set_same _ _ _

theorem Station.chan_setChan_other (s : Station) {c d : Fin 4} (h : d ≠ c) (x : Channel) :
    (s.setChan c x).chan d = s.chan d :=
  get_set_other _ h _

@[simp] theorem Channel.slot_setSlot_same (ch : Channel) (sl : Slot) (f : FormSlot) : (ch.setSlot sl f).slot sl = f := by
  cases sl <;> rfl

theorem Channel.slot_setSlot_other (ch : Channel) {sl sl' : Slot} (h : sl' ≠ sl) (f : FormSlot) :
    (ch.setSlot sl f).slot sl' = ch.slot sl' := by
  cases sl <;> cases sl' <;> first | rfl | exact absurd rfl h

@[simp] theorem Channel.run_setSlot (ch : Channel) (sl : Slot) (f : FormSlot) : (ch.setSlot sl f).run = ch.run := by
  cases sl <;> rfl

/-! ## Ranked order -/

theorem insertRanked_perm {α : Type} (rank : α → Nat) (x : α) (xs : List α) :
    (insertRanked rank x xs).Perm (x :: xs) := by
  induction xs with
  | nil => exact .refl _
  | cons y ys ih =>
    unfold insertRanked
    split
    · exact .refl _
    · exact (ih.cons y).trans (.swap x y ys)

theorem orderRanked_perm {α : Type} (rank : α → Nat) (xs : List α) : (orderRanked rank xs).Perm xs := by
  induction xs with
  | nil => exact .refl _
  | cons x xs ih => exact (insertRanked_perm rank x _).trans (ih.cons x)

theorem mem_orderRanked {α : Type} (rank : α → Nat) (xs : List α) (x : α) : x ∈ orderRanked rank xs ↔ x ∈ xs :=
  (orderRanked_perm rank xs).mem_iff

/-! ## Choices between events that fall together -/

/-- A choice reorders what it chooses among and leaves nothing out (log 5). -/
theorem Station.chosenOrder_perm {α : Type} (s : Station) (key : α → Nat) (xs : List α) :
    (s.chosenOrder key xs).Perm xs := by
  unfold Station.chosenOrder
  split
  · exact .refl _
  · exact orderRanked_perm _ _

/-- A choice is counted in `ties` alone. -/
theorem Station.noteChoice_frame {α : Type} (s : Station) (xs : List α) :
    ∃ k, s.noteChoice xs = { s with ties := k } := by
  unfold Station.noteChoice
  split
  · exact ⟨s.ties, rfl⟩
  · exact ⟨_, rfl⟩

/-- What each of some actions keeps, all of them in turn keep. -/
theorem foldl_induct {α σ : Type} {P : σ → Prop} {act : σ → α → σ} {xs : List α}
    (hact : ∀ x ∈ xs, ∀ t, P t → P (act t x)) {t : σ} (h : P t) : P (xs.foldl act t) := by
  induction xs generalizing t with
  | nil => exact h
  | cons x xs ih => exact ih (fun y hy => hact y (.tail _ hy)) (hact x (.head _) t h)

/-- What holds before, does not look at the choice counter and is kept by each action holds after actions in any
order. -/
theorem Station.inTieOrder_induct {α : Type} {P : Station → Prop} {key : α → Nat} {act : α → Station → Station}
    {xs : List α} (htie : ∀ s k, P s → P { s with ties := k }) (hact : ∀ x ∈ xs, ∀ s, P s → P (act x s)) {s : Station}
    (h : P s) : P (s.inTieOrder key act xs) := by
  obtain ⟨k, hk⟩ := s.noteChoice_frame xs
  unfold Station.inTieOrder
  rw [hk]
  exact foldl_induct (fun x hx t ht => hact x ((s.chosenOrder_perm key xs).mem_iff.mp hx) t ht) (htie s k h)

@[simp] theorem Station.inTieOrder_nil {α : Type} (key : α → Nat) (act : α → Station → Station) (s : Station) :
    s.inTieOrder key act [] = s := rfl

@[simp] theorem Station.inTieOrder_singleton {α : Type} (key : α → Nat) (act : α → Station → Station) (x : α)
    (s : Station) : s.inTieOrder key act [x] = act x s := rfl

/-! ## Encoder counts (R2, R3) -/

theorem Station.countOf_forward {s : Station} {new : EncLevels} (h : s.CountsForward new) :
    s.countOf new = some .forward := by
  unfold Station.CountsForward at h
  unfold Station.countOf
  cases hm : s.settings.encoderMode <;> rw [hm] at h <;> dsimp only at h ⊢
  · have key : ∀ a b c d : Bool, (({ a := a, b := b } : EncLevels), ({ a := c, b := d } : EncLevels)) ∈ forwardCycle →
        quad4Count { a := a, b := b } { a := c, b := d } = some .forward := by decide
    exact key _ _ _ _ h
  · obtain ⟨h, rfl⟩ := h
    rw [quad1Count, h]; rfl
  · obtain ⟨h, rfl⟩ := h
    rw [pulseDirCount, h]; rfl

theorem Station.countOf_reverse {s : Station} {new : EncLevels} (h : s.CountsReverse new) :
    s.countOf new = some .reverse := by
  unfold Station.CountsReverse at h
  unfold Station.countOf
  cases hm : s.settings.encoderMode <;> rw [hm] at h <;> dsimp only at h ⊢
  · have key : ∀ a b c d : Bool, (({ a := a, b := b } : EncLevels), ({ a := c, b := d } : EncLevels)) ∈ reverseCycle →
        quad4Count { a := a, b := b } { a := c, b := d } = some .reverse := by decide
    exact key _ _ _ _ h
  · obtain ⟨h, rfl⟩ := h
    rw [quad1Count, h]; rfl
  · obtain ⟨h, rfl⟩ := h
    rw [pulseDirCount, h]; rfl

theorem Station.acceptLevels_eq (s : Station) (new : EncLevels) :
    s.acceptLevels new = { s with pins.enc := new, pos.ref := s.refAt new } := by
  unfold Station.acceptLevels Station.refAt
  cases s.settings.encoderMode <;> rfl

/-! ## The mark timer (R43, R48) -/

/-- Everything an expiry of the mark timer can do to a station whose queue is not empty. -/
theorem Station.markExpires_of_waiting {s : Station} (h : s.link.txq ≠ []) :
    ∃ m o, s.markExpires = { s with link.mark := m, link.ownTaken := o } := by
  unfold Station.markExpires
  split
  · exact ⟨s.link.mark, s.link.ownTaken, rfl⟩
  · split
    · exact ⟨s.link.mark, false, rfl⟩
    · rw [if_neg (by simpa using h)]
      exact ⟨_, s.link.ownTaken, rfl⟩

end Sys2Proof.Machine
end

