-- ==== Sys2Proof/Laws/Commands.lean ====
section
/-! SUPPORT. The controller's commands: what a COMMAND write leaves once its body's answer is known, and what the
argument forms give for words in and out of their ranges; words as the sums of their fields. -/

namespace Sys2Proof.Machine

/-! ## A COMMAND write -/

/-- A COMMAND write leaves its body's answer, with RESULT holding the outcome. -/
theorem Station.runCommand_of {code : BitVec 8} {body : Station → Answer} {s : Station} {a : Answer}
    (h : body { s with port.command := code, port.access := .ok, port.miso := 0 } = a) :
    s.runCommand code body =
      { a.station with port.result := { command := code, code := a.code, detail := a.detail } } := by
  subst h; rfl

theorem Station.whenInService_of_inService {body : Station → Answer} {s : Station} (h : s.ctl.state.inService = true) :
    s.whenInService body = body s := if_pos h

theorem Station.whenInService_of_not {body : Station → Answer} {s : Station} (h : s.ctl.state.inService = false) :
    s.whenInService body = s.answer .refusedState := if_neg (by simp [h])

theorem StationState.inService_iff (st : StationState) : st.inService = true ↔ st = .settling ∨ st = .active := by
  cases st <;> decide

/-! ## Arguments in range -/

theorem stationArg_setWidth (o : Station5) : stationArg (o.setWidth 32) = some o := by
  unfold stationArg
  rw [if_pos (by have := o.isLt; simp; omega)]
  simp

theorem seqArg_setWidth (q : Seq8) : seqArg (q.setWidth 32) = some q := by
  unfold seqArg
  rw [if_pos (by have := q.isLt; simp; omega)]
  simp

theorem tagArg_setWidth (tag : Tag) : tagArg (tag.origin.setWidth 32) (tag.seq.setWidth 32) = some tag := by
  unfold tagArg
  rw [stationArg_setWidth, seqArg_setWidth]

theorem laneArg_setWidth (l : BitVec 2) : laneArg (l.setWidth 32) = some l := by
  unfold laneArg
  rw [if_pos (by have := l.isLt; simp; omega)]
  simp

theorem classArg_setWidth (c : BitVec 4) : classArg (c.setWidth 32) = some c := by
  unfold classArg
  rw [if_pos (by have := c.isLt; simp; omega)]
  simp

theorem channelArg_of {w : Word} {c : Fin 4} (h : w.toNat = c.val) : channelArg w = some c := by
  unfold channelArg
  rw [dif_pos (by rw [h]; exact c.isLt)]
  exact congrArg some (Fin.ext h)

theorem slotArg_of {w : Word} {sl : Slot} (h : w = (match sl with | .a => 0 | .b => 1)) : slotArg w = some sl := by
  subst h
  cases sl <;> decide

/-! ## Arguments out of range -/

theorem tagArg_out {o q : Word} (h : 31 < o.toNat ∨ 255 < q.toNat) : tagArg o q = none := by
  unfold tagArg stationArg seqArg
  rcases h with h | h
  · rw [if_neg (by omega)]; split <;> simp_all
  · rw [if_neg (c := q.toNat ≤ 255) (by omega)]; split <;> simp_all

theorem laneArg_out {w : Word} (h : 3 < w.toNat) : laneArg w = none := if_neg (by omega)

theorem classArg_out {w : Word} (h : 15 < w.toNat) : classArg w = none := if_neg (by omega)

theorem channelArg_out {w : Word} (h : 3 < w.toNat) : channelArg w = none := dif_neg (by omega)

theorem slotArg_out {w : Word} (h : 1 < w.toNat) : slotArg w = none := by
  unfold slotArg
  rw [if_neg, if_neg] <;> (intro e; rw [e] at h; simp at h)

/-! ## START -/

theorem Station.start_refused {s : Station} {code : ResultCode} {detail : BitVec 16} (h : s.ctl.state = .halted)
    (hv : s.validate = some (code, detail)) : s.start = { station := s, code := code, detail := detail } := by
  unfold Station.start
  rw [if_neg (by simp [h]), hv]

theorem Station.start_accepted {s : Station} (h : s.ctl.state = .halted) (hv : s.validate = none) :
    s.start = s.accept.answer .done := by
  unfold Station.start
  rw [if_neg (by simp [h]), hv]

/-! ## Words by their fields -/

/-- A word of two fields is the sum of its fields. Where the width of a word stands as one number, `erw` finds it. -/
theorem toNat_append_add {v w : Nat} (x : BitVec v) (y : BitVec w) : (x ++ y).toNat = x.toNat * 2 ^ w + y.toNat := by
  rw [BitVec.toNat_append, Nat.shiftLeft_eq, Nat.mul_comm]
  exact (Nat.two_pow_add_eq_or_of_lt y.isLt _).symm

/-- The thirteen bits of a tag (R183). -/
theorem Tag.bits_toNat (t : Tag) : (Tag.bits t).toNat = 2 ^ 8 * t.origin.toNat + t.seq.toNat := by
  unfold Tag.bits
  exact (toNat_append_add _ _).trans (by omega)

end Sys2Proof.Machine
end

