-- ==== Sys2Proof/Laws/Frames.lean ====
section
/-! SUPPORT. What each shared operation can change: one equation an operation, from which every unchanged field is read
off. -/

namespace Sys2Proof.Machine

/-! ## Output channels -/

theorem Station.fireRequest_frame (s : Station) (c : Fin 4) (sl : Slot) (src : Source) (i : Option Tag) :
    ∃ ch ev, s.fireRequest c sl src i = { s with channels := ch, events := ev } := by
  unfold Station.fireRequest
  split
  · exact ⟨s.channels, _, rfl⟩
  · exact ⟨s.channels, _, rfl⟩
  · exact ⟨_, s.events, rfl⟩

theorem Station.followChain_frame (s : Station) (c : Fin 4) (i : Option Tag) :
    ∃ ch ev, s.followChain c i = { s with channels := ch, events := ev } := by
  unfold Station.followChain
  split
  · exact ⟨s.channels, s.events, rfl⟩
  · split
    · exact s.fireRequest_frame _ _ _ _
    · exact ⟨s.channels, s.events, rfl⟩

theorem Station.endSequence_frame (s : Station) (c : Fin 4) (r : Run) :
    ∃ ch ev, s.endSequence c r = { s with channels := ch, events := ev } := by
  obtain ⟨ch, ev, h⟩ := (s.setRun c none).followChain_frame c r.item
  exact ⟨ch, ev, h⟩

theorem Station.releaseHold_frame (s : Station) (c : Fin 4) :
    ∃ ch ev, s.releaseHold c = { s with channels := ch, events := ev } := by
  unfold Station.releaseHold
  split
  · exact ⟨s.channels, s.events, rfl⟩
  · split
    · exact s.endSequence_frame c _
    · exact ⟨s.channels, s.events, rfl⟩

theorem Station.releaseHoldAmong_frame (before : Station) (waiting : List (Fin 4)) (c : Fin 4) (s : Station) :
    ∃ ch ev, Station.releaseHoldAmong before waiting c s = { s with channels := ch, events := ev } := by
  unfold Station.releaseHoldAmong
  split
  · obtain ⟨ch, ev, h⟩ := Station.releaseHold_frame { s with pins.aux := before.pins.aux } c
    exact ⟨ch, ev, by rw [h]⟩
  · exact s.releaseHold_frame c

theorem Station.applyAux_frame (before : Station) (waiting : List (Fin 4)) (c : Fin 4) (s : Station) :
    ∃ ch ev, Station.applyAux before waiting c s = { s with channels := ch, events := ev } := by
  unfold Station.applyAux
  split
  · exact ⟨s.channels, s.events, rfl⟩
  · split
    · unfold Station.cutSequence
      split
      · exact ⟨s.channels, s.events, rfl⟩
      · exact ⟨_, _, rfl⟩
    · exact Station.releaseHoldAmong_frame before waiting c s

theorem Station.applyConditions_frame (before : Station) (cs : List (Fin 4)) (s : Station) :
    ∃ ch ev, Station.applyConditions before cs s = { s with channels := ch, events := ev } := by
  induction cs generalizing s with
  | nil => exact ⟨s.channels, s.events, rfl⟩
  | cons c cs ih =>
    obtain ⟨ch, ev, h⟩ := Station.applyAux_frame before cs c s
    obtain ⟨ch', ev', h'⟩ := ih (Station.applyAux before cs c s)
    exact ⟨ch', ev', by rw [Station.applyConditions, h', h]⟩

theorem Station.conditionsChanged_frame (before s : Station) :
    ∃ ch ev k, Station.conditionsChanged before s = { s with channels := ch, events := ev, ties := k } := by
  obtain ⟨k, hk⟩ := s.noteChoice_frame (Station.auxConcerns before s)
  obtain ⟨ch, ev, h⟩ := Station.applyConditions_frame before
    (s.chosenOrder (fun c : Fin 4 => c.val) (Station.auxConcerns before s))
    (s.noteChoice (Station.auxConcerns before s))
  exact ⟨ch, ev, k, by rw [Station.conditionsChanged, h, hk]⟩

/-- A write of a channel's settings reaches that channel's sequence alone (R160). -/
theorem Station.setChannelSettings_eq (s a : Station) (c : Fin 4) (x : ChannelSettings)
    (ha : a = { s with settings.channels := s.settings.channels.set c.val x c.isLt }) :
    s.setChannelSettings c x =
      if Station.auxActsOn s a c then (if a.inhibits c then a.cutSequence c else a.releaseHold c) else a := by
  have hother : ∀ d, d ≠ c → a.settings.channels.get d = s.settings.channels.get d := by
    intro d hd; rw [ha]; exact get_set_other _ hd _
  have hpins : a.pins = s.pins := by rw [ha]
  have hin : ∀ d, d ≠ c → a.inhibits d = s.inhibits d ∧ a.holds d = s.holds d := by
    intro d hd; unfold Station.inhibits Station.holds; rw [hother d hd, hpins]; exact ⟨rfl, rfl⟩
  have hact : ∀ d, d ≠ c → Station.auxActsOn s a d = false := by
    intro d hd
    unfold Station.auxActsOn
    rw [(hin d hd).1, (hin d hd).2]
    split
    · rfl
    · cases s.inhibits d <;> cases s.holds d <;> simp
  have hself : s.inhibits c = true → Station.auxActsOn s a c = false := by
    intro h
    have hh : s.holds c = false := by
      unfold Station.inhibits at h; unfold Station.holds
      simp only [Bool.and_eq_true, beq_iff_eq] at h
      rw [h.1]; rfl
    unfold Station.auxActsOn
    rw [h, hh]
    split <;> simp
  have hrel : ∀ d, Station.releasedForChain s a d = false := by
    intro d
    unfold Station.releasedForChain
    by_cases hd : d = c
    · subst hd
      cases h : s.inhibits d
      · simp
      · have : ∀ e, Station.auxActsOn s a e = false := by
          intro e; by_cases he : e = d
          · rw [he]; exact hself h
          · exact hact e he
        simp [this]
    · rw [(hin d hd).1]; cases s.inhibits d <;> simp
  have hcon : Station.auxConcerns s a = if Station.auxActsOn s a c then [c] else [] := by
    unfold Station.auxConcerns
    have hf : ∀ d, (Station.auxActsOn s a d || Station.releasedForChain s a d) =
        (decide (d = c) && Station.auxActsOn s a c) := by
      intro d
      rw [hrel, Bool.or_false]
      by_cases hd : d = c
      · subst hd; simp
      · rw [hact d hd]; simp [hd]
    simp only [hf]
    cases Station.auxActsOn s a c
    · simp
    · have key : ∀ c : Fin 4, (List.finRange 4).filter (fun x => decide (x = c) && true) = [c] := by decide
      exact key c
  unfold Station.setChannelSettings
  rw [← ha]
  unfold Station.conditionsChanged
  rw [hcon]
  cases h : Station.auxActsOn s a c
  · rfl
  · show Station.applyAux s [] c a = _
    unfold Station.applyAux Station.releaseHoldAmong
    rw [h]; simp

/-! ## The agenda -/

theorem Station.reportFired_frame (s : Station) (t : Fin 16) (i : Tag) :
    ∃ ev, s.reportFired t i = { s with events := ev } := by
  unfold Station.reportFired
  split
  · exact ⟨_, rfl⟩
  · exact ⟨s.events, rfl⟩

theorem Station.judgeMatched_frame (s : Station) (e : Entry) :
    ∃ ch ev, s.judgeMatched e = { s with channels := ch, events := ev } := by
  unfold Station.judgeMatched
  split
  · exact ⟨s.channels, _, rfl⟩
  · split
    · exact ⟨s.channels, s.events, rfl⟩
    · split
      · exact ⟨s.channels, _, rfl⟩
      · obtain ⟨ev, h⟩ := s.reportFired_frame e.template e.item
        obtain ⟨ch, ev', h'⟩ := (s.reportFired e.template e.item).fireRequest_frame
          ((s.reportFired e.template e.item).template e.template).channel
          ((s.reportFired e.template e.item).template e.template).slot .agenda (some e.item)
        exact ⟨ch, ev', h'.trans (by rw [h])⟩

theorem Station.handleLate_frame (s : Station) (t : Fin 16) (i : Tag) (l : Nat) :
    ∃ ch ev, s.handleLate t i l = { s with channels := ch, events := ev } := by
  unfold Station.handleLate
  split
  · exact ⟨s.channels, _, rfl⟩
  · split
    · exact ⟨s.channels, _, rfl⟩
    · split
      · exact ⟨s.channels, s.events, rfl⟩
      · obtain ⟨ch, ev, h⟩ := Station.fireRequest_frame
          (s.addRecord { kind := .lateFire, item := some i, template := some t, channel := some (s.template t).channel,
                         value := some (l : Int) }) (s.template t).channel (s.template t).slot .agenda (some i)
        exact ⟨ch, ev, h⟩

theorem Station.releaseClaim_frame (s : Station) (e : Entry) :
    ∃ q ev, s.releaseClaim e = { s with link.txq := q, events := ev } := by
  unfold Station.releaseClaim
  split
  · split
    · exact s.enqueue_frame _ _
    · exact ⟨s.link.txq, s.events, rfl⟩
  · exact ⟨_, s.events, rfl⟩
  · exact ⟨s.link.txq, s.events, rfl⟩
  · exact ⟨s.link.txq, s.events, rfl⟩

/-- An entry that leaves is erased from the agenda. Its release and its handling reach the queue, the channels and the
records alone. -/
theorem Station.leaveAgenda_frame {handle : Entry → Station → Station}
    (hh : ∀ e s, ∃ ch ev, handle e s = { s with channels := ch, events := ev }) (s : Station) (e : Entry) :
    ∃ q ch ev, s.leaveAgenda handle e =
      { s with agenda := s.agenda.erase e, link.txq := q, channels := ch, events := ev } := by
  obtain ⟨q, ev, h⟩ := Station.releaseClaim_frame { s with agenda := s.agenda.erase e } e
  obtain ⟨ch, ev', h'⟩ := hh e (({ s with agenda := s.agenda.erase e }).releaseClaim e)
  exact ⟨q, ch, ev', h'.trans (by rw [h])⟩

theorem erase_foldl_filter (p : Entry → Bool) (l : List Entry) :
    (l.filter p).foldl (fun a e => a.erase e) l = l.filter (fun e => !p e) := by
  suffices h : ∀ (es l : List Entry), (∀ e ∈ es, p e = true) → l.filter p = es →
      es.foldl (fun a e => a.erase e) l = l.filter (fun e => !p e) from
    h _ l (fun e he => (List.mem_filter.mp he).2) rfl
  intro es
  induction es with
  | nil =>
    intro l _ h
    exact (List.filter_eq_self.mpr fun a ha => by
      have := List.filter_eq_nil_iff.mp h a ha
      simpa using this).symm
  | cons e es ih =>
    intro l hp h
    have hpe := hp e (.head _)
    have key : ∀ l : List Entry, l.filter p = e :: es →
        (l.erase e).filter p = es ∧ (l.erase e).filter (fun e => !p e) = l.filter (fun e => !p e) := by
      intro l
      induction l with
      | nil => intro h; cases h
      | cons a l ihl =>
        intro h
        by_cases ha : p a = true
        · simp only [List.filter_cons, ha, if_true, List.cons.injEq] at h
          obtain ⟨rfl, hes⟩ := h
          exact ⟨by rw [List.erase_cons_head]; exact hes, by simp [ha]⟩
        · have hne : (a == e) = false := by
            apply beq_false_of_ne
            rintro rfl
            exact ha hpe
          simp only [List.filter_cons, ha] at h
          have := ihl (by simpa using h)
          rw [List.erase_cons_tail (by simp [hne])]
          simp [ha, this]
    rw [List.foldl_cons, ih (l.erase e) (fun x hx => hp x (.tail _ hx)) (key l h).1]
    exact (key l h).2

/-- Entries that leave one after another are erased, and besides the agenda only the queue, the channels and the records
are reached. -/
theorem Station.leaveFold_frame {handle : Entry → Station → Station}
    (hh : ∀ e s, ∃ ch ev, handle e s = { s with channels := ch, events := ev }) (es : List Entry) (s : Station) :
    ∃ q ch ev, es.foldl (Station.leaveAgenda handle) s =
      { s with agenda := es.foldl (fun a e => a.erase e) s.agenda, link.txq := q, channels := ch, events := ev } := by
  induction es generalizing s with
  | nil => exact ⟨s.link.txq, s.channels, s.events, rfl⟩
  | cons e es ih =>
    obtain ⟨q, ch, ev, h⟩ := Station.leaveAgenda_frame hh s e
    obtain ⟨q', ch', ev', h'⟩ := ih (s.leaveAgenda handle e)
    refine ⟨q', ch', ev', ?_⟩
    rw [List.foldl_cons, h', h]
    rfl

/-- Entries that leave are erased, the match register is loaded from what stays, and besides these only the queue, the
channels and the records are reached. -/
theorem Station.leaveAll_frame {handle : Entry → Station → Station}
    (hh : ∀ e s, ∃ ch ev, handle e s = { s with channels := ch, events := ev }) (es : List Entry) (s : Station) :
    ∃ q ch ev, s.leaveAll handle es =
      { s with agenda := es.foldl (fun a e => a.erase e) s.agenda, link.txq := q, channels := ch, events := ev,
               pos.matchReg := (es.foldl (fun a e => a.erase e) s.agenda).head?.map Entry.fire } := by
  obtain ⟨q, ch, ev, h⟩ := Station.leaveFold_frame hh es s
  exact ⟨q, ch, ev, by rw [Station.leaveAll, h]; rfl⟩

/-- The entries that a test chooses leave. -/
theorem Station.leaveFiltered_frame {handle : Entry → Station → Station}
    (hh : ∀ e s, ∃ ch ev, handle e s = { s with channels := ch, events := ev }) (p : Entry → Bool) (s : Station) :
    ∃ q ch ev, s.leaveAll handle (s.agenda.filter p) =
      { s with agenda := s.agenda.filter (fun e => !p e), link.txq := q, channels := ch, events := ev,
               pos.matchReg := (s.agenda.filter (fun e => !p e)).head?.map Entry.fire } := by
  obtain ⟨q, ch, ev, h⟩ := Station.leaveAll_frame hh (s.agenda.filter p) s
  rw [erase_foldl_filter] at h
  exact ⟨q, ch, ev, h⟩

theorem Station.takeMatch_frame (s : Station) :
    ∃ q ch ev, s.takeMatch =
      { s with agenda := s.agenda.filter (fun e => !(e.fire == s.pos.count)), link.txq := q, channels := ch,
               events := ev,
               pos.matchReg := (s.agenda.filter (fun e => !(e.fire == s.pos.count))).head?.map Entry.fire } :=
  Station.leaveFiltered_frame (fun e s => s.judgeMatched_frame e) _ s

theorem Station.lateSweep_frame (s : Station) :
    ∃ q ch ev, s.lateSweep =
      { s with agenda := s.agenda.filter (fun e => ahead e.fire s.pos.count), link.txq := q, channels := ch,
               events := ev,
               pos.matchReg := (s.agenda.filter (fun e => ahead e.fire s.pos.count)).head?.map Entry.fire } := by
  have h := Station.leaveFiltered_frame (handle := fun e t => t.handleLate e.template e.item (dist t.pos.count e.fire))
    (fun e s => s.handleLate_frame _ _ _) (fun e => !ahead e.fire s.pos.count) s
  simp only [Bool.not_not] at h
  exact h

theorem Station.cancelItem_frame (s : Station) (tag : Tag) :
    ∃ q ev, s.cancelItem tag =
      { s with agenda := s.agenda.filter (fun e => !(e.item == tag)), link.txq := q, events := ev,
               pos.matchReg := (s.agenda.filter (fun e => !(e.item == tag))).head?.map Entry.fire } := by
  suffices h : ∀ (es : List Entry) (s : Station), ∃ q ev, es.foldl (Station.leaveAgenda fun _ t => t) s =
      { s with agenda := es.foldl (fun a e => a.erase e) s.agenda, link.txq := q, events := ev } by
    obtain ⟨q, ev, h⟩ := h (s.agenda.filter (fun e => e.item == tag)) s
    rw [erase_foldl_filter] at h
    exact ⟨q, ev, by rw [Station.cancelItem, Station.leaveAll, h]; rfl⟩
  intro es
  induction es with
  | nil => exact fun s => ⟨s.link.txq, s.events, rfl⟩
  | cons e es ih =>
    intro s
    obtain ⟨q, ev, h⟩ := Station.releaseClaim_frame { s with agenda := s.agenda.erase e } e
    obtain ⟨q', ev', h'⟩ := ih (({ s with agenda := s.agenda.erase e }).releaseClaim e)
    refine ⟨q', ev', ?_⟩
    rw [List.foldl_cons]
    exact h'.trans (by rw [h]; rfl)

/-! ## Insertion -/

theorem Station.makeClaim_frame (s : Station) (t : Fin 16) (i : Tag) (g : BitVec 3) (p : Pos) (l : BitVec 16) :
    ∃ q ev k, (s.makeClaim t i g p l).station = { s with link.txq := q, events := ev, claimSeq := k } := by
  unfold Station.makeClaim
  split
  · exact ⟨s.link.txq, _, s.claimSeq, rfl⟩
  · split
    · exact ⟨s.link.txq, _, s.claimSeq, rfl⟩
    · unfold Station.sendClaim
      split
      · exact ⟨s.link.txq, _, s.claimSeq, rfl⟩
      · exact ⟨_, s.events, _, rfl⟩

theorem Station.claimFor_frame (s : Station) (t : Fin 16) (i : Tag) (f : Pos) :
    ∃ q ev k, (s.claimFor t i f).station = { s with link.txq := q, events := ev, claimSeq := k } := by
  unfold Station.claimFor
  split
  · exact ⟨s.link.txq, s.events, s.claimSeq, rfl⟩
  · exact s.makeClaim_frame _ _ _ _ _

theorem Station.addEntry_frame (s : Station) (t : Fin 16) (i : Item) (f : Pos) :
    ∃ q ev k, s.addEntry t i f =
      { s with link.txq := q, events := ev, claimSeq := k,
               agenda := insertEntry s.pos.count
                 { fire := f, template := t, item := i.tag, claim := (s.claimFor t i.tag f).claim } s.agenda } := by
  obtain ⟨q, ev, k, h⟩ := s.claimFor_frame t i.tag f
  exact ⟨q, ev, k, by rw [Station.addEntry, h]⟩

theorem Station.insertFor_frame (s : Station) (i : Item) (t : Fin 16) :
    ∃ q ch ev k ag, s.insertFor i t =
      { s with link.txq := q, channels := ch, events := ev, claimSeq := k, agenda := ag } := by
  unfold Station.insertFor
  split
  · exact ⟨s.link.txq, s.channels, s.events, s.claimSeq, s.agenda, rfl⟩
  · split
    · obtain ⟨ch, ev, h⟩ := s.handleLate_frame t i.tag (dist s.pos.count ((s.template t).firePosition i))
      exact ⟨s.link.txq, ch, ev, s.claimSeq, s.agenda, h⟩
    · split
      · exact ⟨s.link.txq, s.channels, _, s.claimSeq, s.agenda, rfl⟩
      · obtain ⟨q, ev, k, h⟩ := s.addEntry_frame t i ((s.template t).firePosition i)
        exact ⟨q, s.channels, ev, k, _, h⟩

theorem Station.insertItem_frame (s : Station) (i : Item) :
    ∃ q ch ev k ag, s.insertItem i =
      { s with link.txq := q, channels := ch, events := ev, claimSeq := k, agenda := ag,
               pos.matchReg := ag.head?.map Entry.fire } := by
  suffices h : ∀ (ts : List (Fin 16)) (s : Station), ∃ q ch ev k ag, ts.foldl (Station.insertFor i) s =
      { s with link.txq := q, channels := ch, events := ev, claimSeq := k, agenda := ag } by
    obtain ⟨q, ch, ev, k, ag, h⟩ := h (List.finRange 16) s
    exact ⟨q, ch, ev, k, ag, by rw [Station.insertItem, h]; rfl⟩
  intro ts
  induction ts with
  | nil => exact fun s => ⟨s.link.txq, s.channels, s.events, s.claimSeq, s.agenda, rfl⟩
  | cons t ts ih =>
    intro s
    obtain ⟨q, ch, ev, k, ag, h⟩ := s.insertFor_frame i t
    obtain ⟨q', ch', ev', k', ag', h'⟩ := ih (s.insertFor i t)
    refine ⟨q', ch', ev', k', ag', ?_⟩
    rw [List.foldl_cons]
    exact h'.trans (by rw [h])

theorem Station.loseClaim_frame (s : Station) (q : Seq8) (r : LossReason) :
    ∃ ag ev, s.loseClaim q r = { s with agenda := ag, events := ev } := by
  unfold Station.loseClaim
  split
  · exact ⟨s.agenda, s.events, rfl⟩
  · exact ⟨_, _, rfl⟩

/-! ## The track table -/

theorem Station.removeItem_frame (s : Station) (tag : Tag) :
    ∃ q ev, s.removeItem tag =
      { s with track := s.track.eraseP (fun i => i.tag == tag),
               agenda := s.agenda.filter (fun e => !(e.item == tag)), link.txq := q, events := ev,
               pos.matchReg := (s.agenda.filter (fun e => !(e.item == tag))).head?.map Entry.fire } := by
  obtain ⟨q, ev, h⟩ := Station.cancelItem_frame { s with track := s.track.eraseP (fun i => i.tag == tag) } tag
  exact ⟨q, ev, h⟩

/-- A removal does not look at the service port. -/
theorem Station.removeItem_port (s : Station) (p : ServicePort) (tag : Tag) :
    ({ s with port := p } : Station).removeItem tag = { s.removeItem tag with port := p } := by
  have enq : ∀ (s : Station) (x : Payload) (o : TxOrigin),
      ({ s with port := p } : Station).enqueue x o = { s.enqueue x o with port := p } := by
    intro s x o
    unfold Station.enqueue
    show (if s.txFull then _ else _) = _
    cases s.txFull <;> rfl
  have rel : ∀ (s : Station) (e : Entry),
      ({ s with port := p } : Station).releaseClaim e = { s.releaseClaim e with port := p } := by
    intro s e
    unfold Station.releaseClaim
    cases e.claim with
    | held q =>
      dsimp only
      show (if ahead ((s.template e.template).claimStart e.fire) s.pos.count then _ else _) = _
      cases ahead ((s.template e.template).claimStart e.fire) s.pos.count
      · rfl
      · exact enq s _ _
    | none => rfl
    | wanted q => rfl
    | lost => rfl
  have fold : ∀ (es : List Entry) (s : Station),
      es.foldl (Station.leaveAgenda fun _ t => t) ({ s with port := p } : Station) =
        { es.foldl (Station.leaveAgenda fun _ t => t) s with port := p } := by
    intro es
    induction es with
    | nil => exact fun _ => rfl
    | cons e es ih =>
      intro s
      rw [List.foldl_cons, List.foldl_cons, ← ih]
      exact congrArg (fun x => es.foldl (Station.leaveAgenda fun _ t => t) x)
        (rel { s with agenda := s.agenda.erase e } e)
  have h := fold (s.agenda.filter (fun e => e.item == tag))
    { s with track := s.track.eraseP (fun i => i.tag == tag) }
  exact congrArg Station.loadMatch h

theorem Station.removeOldest_frame (n : Nat) (s : Station) :
    ∃ tr ag q ev m, s.removeOldest n =
      { s with track := tr, agenda := ag, link.txq := q, events := ev, pos.matchReg := m } := by
  induction n generalizing s with
  | zero => exact ⟨s.track, s.agenda, s.link.txq, s.events, s.pos.matchReg, rfl⟩
  | succ n ih =>
    unfold Station.removeOldest
    split
    · exact ⟨s.track, s.agenda, s.link.txq, s.events, s.pos.matchReg, rfl⟩
    · rename_i i _ _
      split
      · obtain ⟨q, ev, h⟩ := s.removeItem_frame i.tag
        obtain ⟨tr', ag', q', ev', m', h'⟩ := ih (s.removeItem i.tag)
        exact ⟨tr', ag', q', ev', m', h'.trans (by rw [h])⟩
      · exact ⟨s.track, s.agenda, s.link.txq, s.events, s.pos.matchReg, rfl⟩

/-! ## Steps and alignments -/

theorem Station.settleStep_frame (s : Station) :
    ∃ st re ss ev, s.settleStep =
      { s with ctl.state := st, ctl.resume := re, ctl.settleStart := ss, events := ev } ∧
      (st = s.ctl.state ∨ s.ctl.state = .settling ∧ st = .active) := by
  unfold Station.settleStep
  split
  · exact ⟨s.ctl.state, s.ctl.resume, s.ctl.settleStart, s.events, rfl, .inl rfl⟩
  · split
    · next h => exact ⟨.active, s.ctl.resume, none, _, rfl, .inr ⟨h, rfl⟩⟩
    · split
      · exact ⟨s.ctl.state, some .active, none, s.events, rfl, .inl rfl⟩
      · exact ⟨s.ctl.state, s.ctl.resume, s.ctl.settleStart, s.events, rfl, .inl rfl⟩

/-- What one step's receivers can change. -/
structure StepFrame (s t : Station) : Prop where
  pins : t.pins = s.pins
  pos : t.pos = { s.pos with matchReg := t.pos.matchReg }
  link : t.link = { s.link with txq := t.link.txq }
  join : t.ctl.join = s.ctl.join
  state : t.ctl.state = s.ctl.state ∨ s.ctl.state = .settling ∧ t.ctl.state = .active
  sense : t.sense = s.sense
  claims : t.claims = s.claims
  claimSeq : t.claimSeq = s.claimSeq
  port : t.port = s.port
  settings : t.settings = s.settings

theorem StepFrame.refl (s : Station) : StepFrame s s :=
  ⟨rfl, rfl, rfl, rfl, .inl rfl, rfl, rfl, rfl, rfl, rfl⟩

theorem StepFrame.trans {s t u : Station} (h : StepFrame s t) (k : StepFrame t u) : StepFrame s u where
  pins := k.pins.trans h.pins
  pos := by rw [k.pos, h.pos]
  link := by rw [k.link, h.link]
  join := k.join.trans h.join
  state := by
    rcases k.state with e | ⟨e₁, e₂⟩
    · rw [e]; exact h.state
    · rcases h.state with e | ⟨e, _⟩
      · exact .inr ⟨e ▸ e₁, e₂⟩
      · exact .inr ⟨e, e₂⟩
  sense := k.sense.trans h.sense
  claims := k.claims.trans h.claims
  claimSeq := k.claimSeq.trans h.claimSeq
  port := k.port.trans h.port
  settings := k.settings.trans h.settings

theorem Station.horizonRemoval_stepFrame (s : Station) : StepFrame s s.horizonRemoval := by
  obtain ⟨tr, ag, q, ev, m, h⟩ := Station.removeOldest_frame s.track.length s
  rw [Station.horizonRemoval, h]
  exact ⟨rfl, rfl, rfl, rfl, .inl rfl, rfl, rfl, rfl, rfl, rfl⟩

theorem Station.takeMatch_stepFrame (s : Station) : StepFrame s s.takeMatch := by
  obtain ⟨q, ch, ev, h⟩ := s.takeMatch_frame
  rw [h]
  exact ⟨rfl, rfl, rfl, rfl, .inl rfl, rfl, rfl, rfl, rfl, rfl⟩

theorem Station.lateSweep_stepFrame (s : Station) : StepFrame s s.lateSweep := by
  obtain ⟨q, ch, ev, h⟩ := s.lateSweep_frame
  rw [h]
  exact ⟨rfl, rfl, rfl, rfl, .inl rfl, rfl, rfl, rfl, rfl, rfl⟩

theorem Station.handle_stepFrame (r : StepReceiver) (s : Station) : StepFrame s (r.handle s) := by
  cases r with
  | track => exact s.horizonRemoval_stepFrame
  | agenda =>
    show StepFrame s s.matchStep
    unfold Station.matchStep
    split
    · exact s.takeMatch_stepFrame
    · exact .refl s
  | control =>
    obtain ⟨st, re, ss, ev, h, hst⟩ := s.settleStep_frame
    show StepFrame s s.settleStep
    rw [h]
    exact ⟨rfl, rfl, rfl, rfl, hst, rfl, rfl, rfl, rfl, rfl⟩

/-- The receivers of a forward step leave the position as the step made it. -/
theorem Station.forwardStep_stepFrame (s : Station) :
    StepFrame { s with pos.count := s.pos.count + 1 } s.forwardStep := by
  unfold Station.forwardStep
  refine Station.inTieOrder_induct (P := fun t => StepFrame { s with pos.count := s.pos.count + 1 } t) ?_ ?_ (.refl _)
  · intro t k h
    exact ⟨h.pins, h.pos, h.link, h.join, h.state, h.sense, h.claims, h.claimSeq, h.port, h.settings⟩
  · exact fun r _ t h => h.trans (Station.handle_stepFrame r t)

/-- The track table and station control are not concerned where only the agenda can be. -/
theorem Station.concerns_of_onlyAgenda {s : Station} (h : s.OnlyAgendaAt s.pos.count) :
    s.concerns .track = false ∧ s.concerns .control = false := by
  obtain ⟨h₂, h₃⟩ := h
  constructor
  · show s.oldestBeyond = false
    unfold Station.oldestBeyond Station.beyondHorizon
    split
    · rfl
    · next i is htr =>
      rcases h₃ i (by rw [htr]; rfl) with h | h
      · rw [h]; rfl
      · simp [Nat.not_lt.mpr h]
  · show s.spanComplete = false
    unfold Station.spanComplete
    split
    · rfl
    · next q hq => exact beq_false_of_ne (h₂ q hq)

/-- No receiver is concerned where nothing is due. -/
theorem Station.concerns_of_nothingDue {s : Station} (h : s.NothingDueAt s.pos.count) (r : StepReceiver) :
    s.concerns r = false := by
  cases r with
  | track => exact (Station.concerns_of_onlyAgenda h.2).1
  | agenda => exact beq_false_of_ne h.1
  | control => exact (Station.concerns_of_onlyAgenda h.2).2

/-- A forward step to a matched position at which the other receivers have nothing to do is the agenda's match. -/
theorem Station.forwardStep_of_onlyAgenda {s : Station} (h : s.OnlyAgendaAt (s.pos.count + 1))
    (hm : s.pos.matchReg = some (s.pos.count + 1)) :
    s.forwardStep = ({ s with pos.count := s.pos.count + 1 }).takeMatch := by
  have hc := Station.concerns_of_onlyAgenda (s := { s with pos.count := s.pos.count + 1 }) h
  have ha : ({ s with pos.count := s.pos.count + 1 } : Station).atMatch = true := by simp [Station.atMatch, hm]
  have hf : [StepReceiver.track, .agenda, .control].filter ({ s with pos.count := s.pos.count + 1 } : Station).concerns =
      [.agenda] := by
    simp only [List.filter, hc.1, hc.2, show Station.concerns _ StepReceiver.agenda = true from ha]
  unfold Station.forwardStep
  dsimp only
  rw [hf, Station.inTieOrder_singleton]
  show Station.matchStep _ = _
  rw [Station.matchStep, ha]
  rfl

/-- A forward step at which nothing is due moves the position and does nothing else. -/
theorem Station.forwardStep_of_nothingDue {s : Station} (h : s.NothingDueAt (s.pos.count + 1)) :
    s.forwardStep = { s with pos.count := s.pos.count + 1 } := by
  have hc := Station.concerns_of_nothingDue (s := { s with pos.count := s.pos.count + 1 }) h
  unfold Station.forwardStep
  dsimp only
  rw [List.filter_eq_nil_iff.mpr fun r _ => by rw [hc r]; exact Bool.false_ne_true]
  rfl

theorem Station.reverseStep_stepFrame (s : Station) :
    StepFrame { s with pos.count := s.pos.count - 1 } s.reverseStep :=
  Station.lateSweep_stepFrame _

end Sys2Proof.Machine
end

