-- ==== Sys2Proof/Laws/Takes.lean ====
section
/-! SUPPORT. What the parts of a take can change: the position step, the purge and the application by kind, and the
claims table after each kind. -/

namespace Sys2Proof.Machine

/-! ## The position step -/

theorem Station.align_frame (s : Station) (k : Pos) :
    ∃ q ch ev, s.align k =
      { s.moveCount k with
        agenda := s.agenda.filter (fun e => ahead e.fire (s.pos.count + k)), link.txq := q, channels := ch, events := ev,
        pos.matchReg := (s.agenda.filter (fun e => ahead e.fire (s.pos.count + k))).head?.map Entry.fire } :=
  (s.moveCount k).lateSweep_frame

theorem Station.returnToResume_of {s : Station} {r : ResumeState} (h : s.ctl.resume = some r) (c : Cause) :
    s.returnToResume c = ({ s with ctl.resume := none }.changeState r.toState c).startMark := by
  unfold Station.returnToResume
  rw [h]

theorem Station.returnToResume_frame (s : Station) (c : Cause) :
    ∃ ct m ev, s.returnToResume c = { s with ctl := ct, link.mark := m, events := ev } := by
  unfold Station.returnToResume
  split
  · exact ⟨s.ctl, s.link.mark, s.events, rfl⟩
  · exact ⟨_, _, _, rfl⟩

/-- The position step of a take leaves the pins, the tables of items and claims, the port and the settings. -/
theorem Station.judgePosition_frame (s : Station) (o : Station5) (k : Pos) :
    ∃ p l ct se ag ch ev, s.judgePosition o k =
      { s with pos := p, link := l, ctl := ct, sense := se, agenda := ag, channels := ch, events := ev } := by
  have check : ∃ p l ct se ag ch ev, s.checkSkew o k =
      { s with pos := p, link := l, ctl := ct, sense := se, agenda := ag, channels := ch, events := ev } := by
    unfold Station.checkSkew
    split
    · exact ⟨s.pos, s.link, s.ctl, s.sense, s.agenda, s.channels, s.events, rfl⟩
    · exact ⟨_, _, _, s.sense, s.agenda, s.channels, _, rfl⟩
  obtain ⟨q, ca, ea, ha⟩ := s.align_frame k
  unfold Station.judgePosition
  split
  · unfold Station.joinAt
    rw [ha]
    exact ⟨_, _, _, _, _, _, _, rfl⟩
  · exact check
  · exact check
  · unfold Station.resolveSkew
    split
    · exact ⟨s.pos, s.link, s.ctl, s.sense, s.agenda, s.channels, s.events, rfl⟩
    · split
      · unfold Station.suspectSpeaks
        split
        · obtain ⟨ct, m, ev, h⟩ := Station.returnToResume_frame { s with pos.suspect := none } .resolved
          exact ⟨_, _, _, s.sense, s.agenda, s.channels, _, h⟩
        · exact ⟨_, s.link, s.ctl, s.sense, s.agenda, s.channels, s.events, rfl⟩
      · unfold Station.thirdOpinion
        split
        · rename_i u _ _ _
          obtain ⟨ct, m, ev, h⟩ := Station.returnToResume_frame
            { s.addRecord { kind := .skewSender, station := some u.station } with pos.suspect := none } .resolved
          exact ⟨_, _, _, s.sense, s.agenda, s.channels, _, h⟩
        · split
          · rw [ha]
            unfold Station.resolveDrift
            obtain ⟨ct, m, ev, h⟩ := Station.returnToResume_frame
              { ({ s.moveCount k with
                    agenda := s.agenda.filter (fun e => ahead e.fire (s.pos.count + k)), link.txq := q, channels := ca,
                    events := ea,
                    pos.matchReg := (s.agenda.filter (fun e => ahead e.fire (s.pos.count + k))).head?.map Entry.fire } :
                  Station).addRecord { kind := .realigned, station := some o, value := some k.toInt } with
                pos.suspect := none } .resolved
            exact ⟨_, _, _, _, _, _, _, h⟩
          · exact ⟨_, s.link, s.ctl, s.sense, s.agenda, s.channels, _, rfl⟩
  · exact ⟨s.pos, s.link, s.ctl, s.sense, s.agenda, s.channels, s.events, rfl⟩
  · exact ⟨s.pos, s.link, s.ctl, s.sense, s.agenda, s.channels, s.events, rfl⟩

/-! ## The steps before the purge -/

theorem Station.noteDuplicate_frame (s : Station) (f : Frame) : ∃ ev, s.noteDuplicate f = { s with events := ev } := by
  unfold Station.noteDuplicate
  split
  · exact ⟨_, rfl⟩
  · exact ⟨s.events, rfl⟩

theorem Station.countGoodFrame_frame (s : Station) :
    ∃ ct g m ev, s.countGoodFrame = { s with ctl := ct, link.goodRun := g, link.mark := m, events := ev } := by
  unfold Station.countGoodFrame
  split
  · exact ⟨s.ctl, s.link.goodRun, s.link.mark, s.events, rfl⟩
  · split
    · exact ⟨s.ctl, _, s.link.mark, s.events, rfl⟩
    · obtain ⟨ct, m, ev, h⟩ := Station.returnToResume_frame { s with link.goodRun := 0 } .goodRun
      exact ⟨_, _, _, _, h⟩

/-- What a take of another station's frame has changed before the purge. -/
theorem Station.beforePurge_frame (s : Station) (f : Frame) (k : Pos) :
    ∃ p l ct se ag ch ev, ((s.noteDuplicate f).countGoodFrame).judgePosition f.sender k =
      { s with pos := p, link := l, ctl := ct, sense := se, agenda := ag, channels := ch, events := ev } := by
  obtain ⟨e₁, h₁⟩ := s.noteDuplicate_frame f
  rw [h₁]
  obtain ⟨c₂, g₂, m₂, e₂, h₂⟩ := Station.countGoodFrame_frame { s with events := e₁ }
  rw [h₂]
  obtain ⟨p, l, ct, se, ag, ch, ev, h⟩ := Station.judgePosition_frame
    ({ s with ctl := c₂, link.goodRun := g₂, link.mark := m₂, events := e₂ } : Station) f.sender k
  exact ⟨p, l, ct, se, ag, ch, ev, h⟩

/-! ## Frames handed back -/

/-- A frame handed back reaches the agenda and the records alone. -/
theorem Station.handBack_frame (flushed : Bool) (s : Station) (e : TxEntry) :
    ∃ ag ev, s.handBack flushed e = { s with agenda := ag, events := ev } := by
  unfold Station.handBack
  split
  · exact s.loseClaim_frame _ _
  · split
    · exact ⟨s.agenda, _, rfl⟩
    · exact ⟨s.agenda, s.events, rfl⟩
  all_goals exact ⟨s.agenda, s.events, rfl⟩

/-- A hand-back does not look at the link controller or at station control. -/
theorem Station.handBack_link_ctl (flushed : Bool) (s : Station) (l : LinkController) (c : StationControl) (e : TxEntry) :
    ({ s with link := l, ctl := c } : Station).handBack flushed e =
      { s.handBack flushed e with link := l, ctl := c } := by
  unfold Station.handBack
  cases e.payload with
  | claim q g p n =>
    dsimp only
    unfold Station.loseClaim
    dsimp only
    split <;> rfl
  | sight => dsimp only; split <;> rfl
  | _ => rfl

/-- Of an entry, the hand-back looks at the payload alone. -/
theorem Station.handBack_payload {e f : TxEntry} (h : e.payload = f.payload) (flushed : Bool) (s : Station) :
    s.handBack flushed e = s.handBack flushed f := by
  unfold Station.handBack
  rw [h]

/-- The flush empties the queue and, besides, reaches the agenda and the records alone. -/
theorem Station.flushQueue_frame (s : Station) :
    ∃ ag ev, s.flushQueue = { s with link.txq := [], agenda := ag, events := ev } := by
  refine foldl_induct (P := fun t => ∃ ag ev, t = { s with link.txq := [], agenda := ag, events := ev }) ?_
    ⟨s.agenda, s.events, rfl⟩
  rintro e _ _ ⟨ag, ev, rfl⟩
  obtain ⟨ag', ev', h⟩ := Station.handBack_frame true { s with link.txq := [], agenda := ag, events := ev } e
  exact ⟨ag', ev', h⟩

/-! ## The application by kind -/

/-- The application of a frame leaves the pins, the position but for the match register, station control, the sensor
block, the port and the settings. -/
theorem Station.applyKind_frame (s : Station) (own : Bool) (f : Frame) :
    ∃ tr ag cl k ch q ev m, s.applyKind own f =
      { s with track := tr, agenda := ag, claims := cl, claimSeq := k, channels := ch, link.txq := q, events := ev,
               pos.matchReg := m } := by
  unfold Station.applyKind
  split
  · unfold Station.takeSight
    split
    · exact ⟨s.track, s.agenda, s.claims, s.claimSeq, s.channels, s.link.txq, _, s.pos.matchReg, rfl⟩
    · unfold Station.enterItem
      rename_i seq pos lane cls _ _ _
      obtain ⟨q, ch, ev, k, ag, h⟩ := Station.insertItem_frame
        { s with track := placeItem f.stamp (sightItem f.sender seq pos lane cls) s.track }
        (sightItem f.sender seq pos lane cls)
      exact ⟨_, ag, s.claims, k, ch, q, ev, _, h⟩
  · unfold Station.takeVerdict
    split
    · exact ⟨s.track, s.agenda, s.claims, s.claimSeq, s.channels, s.link.txq, _, s.pos.matchReg, rfl⟩
    · split
      · exact ⟨_, s.agenda, s.claims, s.claimSeq, s.channels, s.link.txq, s.events, s.pos.matchReg, rfl⟩
      · exact ⟨s.track, s.agenda, s.claims, s.claimSeq, s.channels, s.link.txq, _, s.pos.matchReg, rfl⟩
  · unfold Station.takeRetire
    split
    · rename_i tag _ _
      obtain ⟨q, ev, h⟩ := s.removeItem_frame tag
      exact ⟨_, _, s.claims, s.claimSeq, s.channels, q, ev, _, h⟩
    · exact ⟨s.track, s.agenda, s.claims, s.claimSeq, s.channels, s.link.txq, s.events, s.pos.matchReg, rfl⟩
  · unfold Station.takeClaim
    split
    · split
      · unfold Station.ownEntered
        split
        · exact ⟨s.track, _, _, s.claimSeq, s.channels, s.link.txq, s.events, s.pos.matchReg, rfl⟩
        · unfold Station.enqueue
          split
          · exact ⟨s.track, s.agenda, _, s.claimSeq, s.channels, s.link.txq, _, s.pos.matchReg, rfl⟩
          · exact ⟨s.track, s.agenda, _, s.claimSeq, s.channels, _, _, s.pos.matchReg, rfl⟩
      · exact ⟨s.track, s.agenda, _, s.claimSeq, s.channels, s.link.txq, s.events, s.pos.matchReg, rfl⟩
    · split
      · unfold Station.loseClaim
        split
        · exact ⟨s.track, s.agenda, s.claims, s.claimSeq, s.channels, s.link.txq, s.events, s.pos.matchReg, rfl⟩
        · exact ⟨s.track, _, s.claims, s.claimSeq, s.channels, s.link.txq, _, s.pos.matchReg, rfl⟩
      · exact ⟨s.track, s.agenda, s.claims, s.claimSeq, s.channels, s.link.txq, s.events, s.pos.matchReg, rfl⟩
  · exact ⟨s.track, s.agenda, _, s.claimSeq, s.channels, s.link.txq, s.events, s.pos.matchReg, rfl⟩
  · exact ⟨s.track, s.agenda, s.claims, s.claimSeq, s.channels, s.link.txq, s.events, s.pos.matchReg, rfl⟩

/-! ## The claims table -/

/-- A CLAIM take enters the claim or leaves the table, at its sender as elsewhere. -/
theorem Station.takeClaim_claims (s : Station) (own : Bool) (t : Pos) (c : Claim) :
    (s.takeClaim own t c).claims = if s.claimRefusal t c = none then placeClaim t c s.claims else s.claims := by
  unfold Station.takeClaim
  cases h : s.claimRefusal t c with
  | none =>
    rw [if_pos rfl]
    cases own with
    | false => rfl
    | true =>
      show (Station.ownEntered _ _).claims = _
      unfold Station.ownEntered
      split
      · rfl
      · unfold Station.enqueue
        split <;> rfl
  | some r =>
    rw [if_neg (c := some r = none) (by simp)]
    cases own with
    | false => rfl
    | true =>
      show (Station.loseClaim _ _ _).claims = _
      unfold Station.loseClaim
      split <;> rfl

/-- A SIGHT, VERDICT, RETIRE or MARK leaves the claims table. -/
theorem Station.applyKind_claims_of {s : Station} {own : Bool} {f : Frame} (hc : f.payload.kind ≠ .claim)
    (hy : f.payload.kind ≠ .yield) : (s.applyKind own f).claims = s.claims := by
  unfold Station.applyKind
  split
  · unfold Station.takeSight
    split
    · rfl
    · unfold Station.enterItem
      rename_i seq pos lane cls _ _ _
      obtain ⟨q, ch, ev, k, ag, h⟩ := Station.insertItem_frame
        { s with track := placeItem f.stamp (sightItem f.sender seq pos lane cls) s.track }
        (sightItem f.sender seq pos lane cls)
      rw [h]
  · unfold Station.takeVerdict
    split
    · rfl
    · split <;> rfl
  · unfold Station.takeRetire
    split
    · rename_i tag _ _
      obtain ⟨q, ev, h⟩ := s.removeItem_frame tag
      rw [h]
    · rfl
  · rename_i h
    rw [h] at hc
    exact absurd rfl hc
  · rename_i h
    rw [h] at hy
    exact absurd rfl hy
  · rfl

end Sys2Proof.Machine
end

