-- ==== Sys2Proof/Tests/Slice0.lean ====
section
/-! SUPPORT. The model's own tests: ill-formed commands, single steps against the spec's worked examples, and for every
statement with hypotheses a concrete state and operands that meet them. -/

namespace Sys2Proof.Tests

open Sys2Proof.Machine

set_option Elab.async false

/-! ## Small states -/

/-- A station of number 4 in a state, with the control fields that go with it, at position 1000. -/
def line (st : StationState) : State :=
  { State.reset with
    ctl.state := st
    ctl.resume := if st = .drifted ∨ st = .mute then some .active else none
    ctl.join := if st = .joining then .running 500000 else .stopped
    ctl.settleStart := if st = .settling then some 900 else none
    link.mark := if st = .settling ∨ st = .active then .running 200000 else .stopped
    pos.count := 1000
    pos.capture := 1000
    pos.suspect := if st = .drifted then some { station := 2, skew := 40 } else none
    settings.stationNumber := 4 }

/-- A queue entry that has not been tried. -/
def waiting (p : Payload) (o : TxOrigin) : TxEntry := { payload := p, attempts := 0, origin := o, inFlight := false }

/-- A station with its head on the line after `n` failed attempts. -/
def sending (st : StationState) (p : Payload) (n : Nat) : State :=
  { line st with link.txq := [{ payload := p, attempts := n, origin := .host, inFlight := true }], link.drive := .frame }

/-- A station that decodes another station's frame. -/
def decoding (st : StationState) : State := { line st with link.receiving := true }

/-- A full transmit queue. -/
def fullQueue (st : StationState) : State := { line st with link.txq := List.replicate 16 (waiting .mark .host) }

/-- An item of a station. -/
def item (o : Station5) (q : Seq8) (sighting : Pos) : Item :=
  { tag := { origin := o, seq := q }, sighting := sighting, lane := 0, cls := 2, verdict := .undecided, source := none }

/-- A claim record. -/
def claim (o : Station5) (q : Seq8) (g : BitVec 3) (start : Pos) (length : BitVec 16) : Claim :=
  { tag := { origin := o, seq := q }, group := g, start := start, length := length }

/-- An agenda entry for the item of station 1, sequence 30. -/
def entry (fire : Pos) (t : Fin 16) (c : ClaimState) : Entry :=
  { fire := fire, template := t, item := { origin := 1, seq := 30 }, claim := c }

/-- A template is replaced. -/
def withTemplate (t : Fin 16) (x : Template) (s : State) : State :=
  { s with settings.templates := s.settings.templates.set t.val x t.isLt }

/-- A channel's settings are replaced. -/
def withChannel (c : Fin 4) (x : ChannelSettings) (s : State) : State :=
  { s with settings.channels := s.settings.channels.set c.val x c.isLt }

/-- A run record of slot A with 10 microseconds left. -/
def runOf (p : Phase) (k : FormKind) (pulses : Nat) (cap : BitVec 16) : Run :=
  { phase := p, slot := .a, source := .agenda, item := none, pulses := pulses, left := 10,
    form := { kind := k, high := 300, low := 200, burst := 3, cap := cap } }

/-- A channel runs. -/
def running (c : Fin 4) (p : Phase) (k : FormKind) (pulses : Nat) (cap : BitVec 16) (s : State) : State :=
  { s with channels := s.channels.set c.val { s.chan c with run := some (runOf p k pulses cap) } c.isLt }

/-- Command arguments. -/
def args (a b c d : Word) (s : State) : State := { s with port.args := { r0 := a, r1 := b, r2 := c, r3 := d } }

/-- The state after a command. -/
def after (c : Instr) (s : State) : State := (nextOf (exec c s)).getD s

/-- The state after a step. -/
def stepped (s : State) : State := (nextOf (step s)).getD s

/-- The event records' kinds and reasons after a command. -/
def records (c : Instr) (s : State) : List (EventKind × Option (BitVec 4)) :=
  (after c s).events.map (fun e => (e.fields.kind, e.fields.reason))

/-! ## Commands of another row are not well formed -/

theorem test_illFormed_frameFault_without_start_bit :
    Instr.wellFormed (.frameFault []) = false ∧ Instr.wellFormed (.frameFault [true, false]) = false := by decide

theorem test_illFormed_assigned_command :
    Instr.wellFormed (.unassignedCommand 1) = false ∧ Instr.wellFormed (.unassignedCommand 10) = false := by decide

theorem test_illFormed_register_with_own_row :
    Instr.wellFormed (.registerWrite 3 0) = false ∧ Instr.wellFormed (.registerWrite 9 0) = false ∧
      Instr.wellFormed (.registerWrite 15 0) = false := by decide

theorem test_illFormed_assigned_transaction :
    Instr.wellFormed (.voidTransaction 0 0 0) = false ∧ Instr.wellFormed (.voidTransaction 3 0 0) = false := by decide

theorem test_wellFormed_at_the_bounds :
    Instr.wellFormed (.frameFault [false]) = true ∧ Instr.wellFormed (.unassignedCommand 0) = true ∧
      Instr.wellFormed (.unassignedCommand 11) = true ∧ Instr.wellFormed (.registerWrite 4 0) = true ∧
      Instr.wellFormed (.voidTransaction 4 0 0) = true := by decide

/-! ## Positions and the encoder (Chapter 1) -/

theorem test_ahead_at_the_bounds :
    ahead 0 0 = false ∧ ahead 1 0 = true ∧ ahead 8388607 0 = true ∧ ahead 8388608 0 = false ∧ Machine.dist 3 16777214 = 5 := by
  decide

/-- The prescale example of section 1.2. -/
theorem test_prescale_example :
    let s : State := { line .halted with settings.prescale := .by4, pos.sub := 2, pos.count := 5000 }
    let p (d : Direction) (s : Station) : Nat × Nat := ((s.count d).pos.sub, (s.count d).pos.count.toNat)
    p .forward s.toStation = (3, 5000) ∧ p .forward { s.toStation with pos.sub := 3 } = (0, 5001) ∧
      p .reverse { s.toStation with pos.sub := 0, pos.count := 5001 } = (3, 5000) := by
  decide +kernel

theorem test_forward_step_wraps :
    (after (.encoderCount { a := true, b := false }) { line .halted with pos.count := 16777215 }).pos.count = 0 ∧
      (after (.encoderCount { a := false, b := true }) { line .halted with pos.count := 0 }).pos.count = 16777215 := by
  decide +kernel

/-- The settle span of 65,552 counts completes on its last step. -/
theorem test_settle_span_completes :
    (after (.encoderCount { a := true, b := false })
      { line .settling with pos.count := 66451 }).ctl.state = .active ∧
    (after (.encoderCount { a := true, b := false })
      { line .settling with pos.count := 66450 }).ctl.state = .settling := by
  decide +kernel

/-- The alignment example of section 1.6: S1, the queue and the agenda. -/
def aligning : State :=
  withTemplate 2 { Template.reset with policy := .fireLate, tolerance := 200 }
    (withTemplate 5 { Template.reset with group := some 1 }
      { line .drifted with
        pos.count := 100000
        link.txq := [waiting (.sight 7 99990 0 0) .sensor, waiting (.verdict { origin := 1, seq := 9 } 1) .host]
        agenda := [entry 100120 2 .none, entry 100250 5 (.held 3), entry 100400 0 .none] })

theorem test_alignment_example :
    let t := aligning.toStation.align 250
    t.pos.count = 100250 ∧ t.pos.matchReg = some 100400 ∧ t.agenda = [entry 100400 0 .none] ∧
      t.link.txq.map TxEntry.payload = [.sight 7 100240 0 0, .verdict { origin := 1, seq := 9 } 1] ∧
      t.events.map (fun e => e.fields.kind) = [.skippedDrift, .lateDrop] := by
  decide +kernel

/-- The three ways out of DRIFTED of section 1.8. -/
theorem test_drift_example :
    let s := (line .drifted).toStation
    (s.judgePosition 9 3).ctl.state = .active ∧ (s.judgePosition 9 3).pos.count = 1000 ∧
      (s.judgePosition 9 37).ctl.state = .active ∧ (s.judgePosition 9 37).pos.count = 1037 ∧
      (s.judgePosition 9 (-20)).ctl.state = .drifted ∧
      (s.judgePosition 9 (-20)).pos.suspect = some { station := 9, skew := -20 } := by
  decide +kernel

/-! ## Frames and the line (Chapter 2) -/

/-- The check of the nine bytes "123456789" under the rule of R28. -/
theorem test_crc_of_nine_digits :
    crc ((List.range 9).flatMap (fun i => fieldBits (BitVec.ofNat 8 (49 + i)))) = 0x29B1#16 := by decide +kernel

theorem test_sight_frame_comes_back :
    let f : Frame := { sender := 31, stamp := 0, payload := .sight 255 0 3 15 }
    receive (frameLevels f) = .good f ∧ (frameBits f).length = 87 := by decide +kernel

theorem test_mark_frame_length :
    (frameBits { sender := 1, stamp := 5, payload := .mark }).length = 49 := by decide +kernel

theorem test_six_equal_levels_are_short :
    receive (List.replicate 6 false) = .fault .short none ∧ receive [false, true, false, true] = .unfinished := by
  decide +kernel

theorem test_frame_start_captures :
    let s : State := { line .active with link.txq := [waiting .mark .link], link.idle := true, pos.count := 77 }
    (after .frameStart s).pos.capture = 77 ∧ (after .frameStart s).headInFlight = true ∧
      (after .frameStart s).link.drive = .frame ∧ after .frameStart (line .active) = line .active := by
  decide +kernel

theorem test_lost_arbitration_keeps_attempts :
    (after .lostArbitration (sending .active .mark 2)).link.txq =
      [{ payload := .mark, attempts := 2, origin := .host, inFlight := false }] := by decide +kernel

theorem test_bit_clash_breaks_and_fails :
    records .bitClash (sending .active (.yield 9) 0) = [(.bitClash, some 2)] ∧
      (after .bitClash (sending .active (.yield 9) 0)).link.drive = .breaks := by decide +kernel

theorem test_fourth_failure_drops :
    (after .failedAttempt (sending .active (.yield 9) 3)).link.txq = [] ∧
      records .failedAttempt (sending .active (.yield 9) 3) = [(.sendFailed, some 2)] := by decide +kernel

/-- The MUTE example of section 4.7: SEND_FAILED, STATE_CHANGE, then a SIGHT_LOST for the flushed SIGHT. -/
theorem test_sixteenth_failure_mutes :
    let s : State :=
      { sending .active (.verdict { origin := 1, seq := 1 } 1) 3 with
        link.fails := 15
        link.txq := [{ payload := .verdict { origin := 1, seq := 1 } 1, attempts := 3, origin := .host, inFlight := true },
                     waiting (.sight 195 0 0 0) .sensor] }
    (after .failedAttempt s).ctl.state = .mute ∧ (after .failedAttempt s).link.txq = [] ∧
      records .failedAttempt s = [(.sendFailed, some 1), (.stateChange, some 7), (.sightLost, some 2)] := by
  decide +kernel

/-- A bit clash that is the 16th failure: the break stays as what was last driven until the idle gap. -/
theorem test_bit_clash_as_sixteenth_failure :
    let s : State := { sending .active (.yield 9) 0 with link.fails := 15 }
    (after .bitClash s).ctl.state = .mute ∧ (after .bitClash s).link.drive = .breaks ∧
      records .bitClash s = [(.bitClash, some 2), (.stateChange, some 7)] ∧
      (after .idleGap (after .bitClash s)).link.drive = .released := by
  decide +kernel

theorem test_mute_does_not_refuse :
    (after (.frameFault (List.replicate 6 false)) (decoding .active)).link.drive = .breaks ∧
      (after (.frameFault (List.replicate 6 false)) (decoding .mute)).link.drive = .released ∧
      records (.frameFault (List.replicate 6 false)) (decoding .mute) = [(.frameFault, some 2)] := by decide +kernel

theorem test_frame_rejected_ends_the_run :
    (after .frameRejected { decoding .mute with link.goodRun := 31 }).link.goodRun = 0 := by decide +kernel

theorem test_idle_gap_then_start_bit :
    (after .idleGap (line .active)).link.idle = true ∧ after .startBit (line .active) = line .active ∧
      (after .startBit { line .joining with link.idle := true, pos.count := 9 }).pos.capture = 9 := by decide +kernel

theorem test_mark_timer_fills_an_empty_queue :
    (after .markTimerExpiry (line .active)).link.txq = [waiting .mark .link] ∧
      after .markTimerExpiry (fullQueue .active) = fullQueue .active := by decide +kernel

theorem test_join_timeout_settles :
    (after .joinTimeout (line .joining)).ctl.settleStart = some 1000 ∧
      records .joinTimeout (line .joining) = [(.stateChange, some 3)] := by decide +kernel

/-! ## Takes (Chapters 1, 5 and 7) -/

/-- Take 1 and take 3 of the claims example of section 7.9, on station 10's table. -/
def claimsExample : State :=
  { decoding .active with
    settings.stationNumber := 10
    pos.capture := 301905
    claims := [claim 6 9 0 301800 100, claim 2 4 1 301990 50, claim 3 51 0 302200 80] }

theorem test_claims_example_purge :
    (after (.frameTake { sender := 7, stamp := 301905, payload := .mark }) claimsExample).claims =
      [claim 2 4 1 301990 50, claim 3 51 0 302200 80] := by decide +kernel

theorem test_claims_example_judgements :
    let s : State := { claimsExample with claims := [claim 3 51 0 302200 80] }
    s.claimRefusal 302010 (claim 4 12 0 302250 60) = some .clash ∧
      s.claimRefusal 302050 (claim 4 13 0 302280 60) = none ∧
      s.claimRefusal 302060 (claim 10 77 2 302000 40) = some .late ∧
      s.claimRefusal 302150 (claim 5 200 1 380000 100) = some .far ∧
      placeClaim 302050 (claim 4 13 0 302280 60) s.claims = [claim 3 51 0 302200 80, claim 4 13 0 302280 60] := by
  decide +kernel

/-- Takes 1 to 4 of the track table example of section 5.10. -/
theorem test_track_example :
    let s : Station := { (line .active).toStation with track := [item 3 41 499200, item 5 7 499200], pos.count := 500800 }
    (s.takeSight 500800 (item 3 40 498950)).track = [item 3 40 498950, item 3 41 499200, item 5 7 499200] ∧
      ({ s with track := [item 3 41 499200] }.takeSight 500400 (item 5 7 499200)).track = s.track ∧
      (s.takeSight 500850 (item 9 200 500900)).events.map (fun e => (e.fields.kind, e.fields.value)) =
        [(.badSight, some 50)] := by
  decide +kernel

/-- Takes 5 to 7 of the track table example: PASS, REJECT, PASS. -/
theorem test_verdict_example :
    let i := item 3 41 499200
    ((i.merge .pass 12).verdict, (i.merge .pass 12).source) = (.pass, some 12) ∧
      (((i.merge .pass 12).merge .reject 14).merge .pass 12) = { i with verdict := .reject, source := some 14 } := by
  decide

/-- The templates of the agenda example of section 6.10. -/
def agendaExample : State :=
  withTemplate 0 { Template.reset with enabled := true, origins := 2, lanes := 1, classes := 4, offset := 2000 }
    (withTemplate 1 { Template.reset with
        enabled := true, origins := 2, lanes := 1, classes := 4, offset := 2000, channel := 1, group := some 0,
        lead := 20, length := 60 }
      (withTemplate 2 { Template.reset with
          enabled := true, origins := 2, lanes := 3, classes := 6, offset := 6000, channel := 2, condition := .reject,
          policy := .fireLate, tolerance := 40, report := true }
        { line .active with
          pos.count := 200310
          claimSeq := 17
          claims := [claim 6 9 0 201800 100, claim 2 4 1 201990 50] }))

theorem test_agenda_example_insertion :
    let t := agendaExample.toStation.takeSight 200300 (item 1 30 200000)
    t.agenda = [entry 202000 0 .none, entry 202000 1 (.wanted 17), entry 206000 2 .none] ∧ t.claimSeq = 18 ∧
      t.pos.matchReg = some 202000 ∧ t.link.txq = [waiting (.claim 17 0 201980 60) .agenda] := by
  decide +kernel

theorem test_agenda_example_match :
    let s : State :=
      { agendaExample with
        pos.count := 201999
        pos.matchReg := some 202000
        agenda := [entry 202000 0 .none, entry 202000 1 (.held 17), entry 206000 2 .none]
        track := [item 1 30 200000] }
    let t := after (.encoderCount { a := true, b := false }) s
    t.agenda = [entry 206000 2 .none] ∧ t.pos.matchReg = some 206000 ∧ (t.chan 0).run.isSome = true ∧
      (t.chan 1).run.isSome = true ∧ t.events = [] ∧ t.link.txq = [] := by
  decide +kernel

/-- The cancellation example of section 6.11. -/
theorem test_cancellation_example :
    let s (c : ClaimState) (f : Bool) : State :=
      { agendaExample with
        pos.count := 201000
        agenda := [entry 202000 1 c]
        track := [item 1 30 200000]
        link.txq := [{ payload := .claim 17 0 201980 60, attempts := 0, origin := .agenda, inFlight := f }] }
    let q (c : ClaimState) (f : Bool) := ((s c f).toStation.takeRetire { origin := 1, seq := 30 }).link.txq.length
    q (.wanted 17) false = 0 ∧ q (.wanted 17) true = 1 ∧ q (.held 17) true = 2 := by
  decide +kernel

/-! ## Sensors and auxiliary inputs (Chapters 4 and 8) -/

/-- Station 3's sensor S0 of the gap example of section 4.7. -/
def gapExample (p : Pos) (last : Option Pos) : State :=
  { line .active with
    pos.count := p
    sense := { inputs := Vector.replicate 4 { level := false, last := last }, seq := 41 }
    settings.sensors := Vector.replicate 4 { enabled := true, edge := .rising, lane := 1, cls := 2, gap := 64 } }

theorem test_gap_example :
    let n (p : Pos) (last : Option Pos) := (after (.sensorInputChange 0 true) (gapExample p last)).link.txq.length
    n 10000 none = 1 ∧ n 10003 (some 10000) = 0 ∧ n 10064 (some 10000) = 1 ∧ n 10150 (some 10180) = 1 ∧
      n 10180 (some 10150) = 0 := by
  decide +kernel

theorem test_edge_in_mute_is_lost :
    records (.sensorInputChange 2 true) { gapExample 5 none with ctl.state := .mute } = [(.sightLost, some 1)] := by
  decide +kernel

theorem test_aux_input_cuts_and_releases :
    let cut := running 0 .high .single 0 0 (withChannel 0 { ChannelSettings.reset with role := .inhibit, input := 1 } (line .active))
    let hold := running 1 .hold .held 0 2000 (withChannel 1 { ChannelSettings.reset with role := .hold, input := 1 }
      { line .active with pins.aux := Vector.replicate 4 true })
    records (.auxInputChange 1 true) cut = [(.cut, some 2)] ∧ ((after (.auxInputChange 1 true) cut).chan 0).run = none ∧
      ((after (.auxInputChange 1 false) hold).chan 1).run = none ∧ records (.auxInputChange 1 false) hold = [] := by
  decide +kernel

/-! ## Output channels (Chapter 8) -/

theorem test_phases_of_a_burst :
    (after (.delayExpiry 0) (running 0 .delay .burst 2 0 (line .active))).outputPin 0 = true ∧
      (after (.highWidthExpiry 0) (running 0 .high .burst 2 0 (line .active))).outputPin 0 = false ∧
      ((after (.highWidthExpiry 0) (running 0 .high .burst 2 0 (line .active))).chan 0).run.map Run.pulses = some 1 ∧
      ((after (.highWidthExpiry 0) (running 0 .high .burst 0 0 (line .active))).chan 0).run = none ∧
      ((after (.lowWidthExpiry 0) (running 0 .low .burst 1 0 (line .active))).chan 0).run.map Run.left = some 300 := by
  decide +kernel

theorem test_hold_cap_is_recorded :
    let s := running 1 .hold .held 0 2000 (withChannel 1 { ChannelSettings.reset with role := .hold, input := 1 }
      { line .active with pins.aux := Vector.replicate 4 true })
    (after (.holdCapExpiry 1) s).events.map (fun e => (e.fields.kind, e.fields.value)) = [(.holdCap, some 2000)] := by
  decide +kernel

theorem test_chain_is_followed_outside_halted :
    let x : ChannelSettings := { ChannelSettings.reset with chained := true, chainChannel := 3, chainSlot := .b }
    ((after (.highWidthExpiry 1) (running 1 .high .single 0 0 (withChannel 1 x (line .active)))).chan 3).run.isSome = true ∧
      ((after (.highWidthExpiry 1) (running 1 .high .single 0 0 (withChannel 1 x (line .halted)))).chan 3).run = none := by
  decide +kernel

/-- A load takes up the staged form (section 8.14). -/
theorem test_force_fire_takes_up_a_commit :
    let slot : FormSlot := { FormSlot.reset with staged := { Form.reset with delay := 40, high := 200 }, pending := true }
    let s := args 0 0 0 0 { line .active with channels := Vector.replicate 4 { Channel.reset with slotA := slot } }
    ((after .forceFire s).chan 0).slotA.live = slot.staged ∧ ((after .forceFire s).chan 0).slotA.pending = false ∧
      ((after .forceFire s).chan 0).run.map (fun r => (r.phase, r.left)) = some (.delay, 40) := by
  decide +kernel

theorem test_commit_form_reports_the_flag :
    let s := args 2 1 0 0 (line .active)
    ((after .commitForm s).chan 2).slotB.pending = true ∧ (after .commitForm s).port.result.detail = 0 ∧
      (after .commitForm (after .commitForm s)).port.result.detail = 1 := by
  decide +kernel

/-! ## The service port (Chapter 10) -/

/-- The POST_SIGHT example of section 10.3, with RESULT read back. -/
theorem test_post_sight_example :
    let s : State := args 1 6 1 0 { line .active with pos.count := 412600, sense.seq := 88 }
    (after .postSight s).registerWord 8 = 0x00580400#32 ∧ (after .postSight s).sense.seq = 89 ∧
      (after .postSight s).link.txq = [waiting (.sight 88 412600 1 6) .sensor] ∧
      (after .postSight { s with link.txq := List.replicate 16 (waiting .mark .host) }).registerWord 8 = 0x00580402#32 ∧
      (after .postSight { s with port.args.r0 := 4 }).registerWord 8 = 0x00000403#32 := by
  decide +kernel

theorem test_post_verdict_and_retire :
    let s := args 3 17 2 0 (line .active)
    (after .postVerdict s).link.txq = [waiting (.verdict { origin := 3, seq := 17 } 2) .host] ∧
      (after .retireItem s).link.txq = [waiting (.retire { origin := 3, seq := 17 }) .host] ∧
      (after .retireItem (args 32 0 0 0 (line .active))).port.result.code = .refusedArg := by
  decide +kernel

theorem test_drop_item :
    let s := args 1 30 0 0 { line .active with track := [item 1 30 900], agenda := [entry 2000 0 .none] }
    (after .dropItem s).track = [] ∧ (after .dropItem s).agenda = [] ∧ (after .dropItem s).port.result.code = .done ∧
      (after .dropItem (args 1 31 0 0 s)).port.result.code = .notFound := by
  decide +kernel

theorem test_start_and_its_refusals :
    (after .start (line .halted)).ctl.state = .joining ∧
      (after .start (line .halted)).ctl.join = .running 500000 ∧
      (after .start (withTemplate 7 { Template.reset with enabled := true, offset := 1024 }
        { line .halted with settings.trackHorizon := 1024 })).port.result.word = 0x00070106#32 ∧
      (after .start (withChannel 2 { ChannelSettings.reset with chained := true, chainChannel := 2 }
        (line .halted))).port.result.word = 0x00020108#32 ∧
      (after .start (line .mute)).port.result.word = 0x00000101#32 := by
  decide +kernel

theorem test_stop_and_resume :
    (after .stop (line .mute)).ctl.state = .halted ∧ records .stop (line .mute) = [(.stateChange, some 10)] ∧
      (after .resume (line .mute)).ctl.state = .active ∧ records .resume (line .mute) = [(.stateChange, some 9)] := by
  decide +kernel

theorem test_pop_event :
    let e : EventRecord := { fields := { kind := .skew, station := some 2, value := some (-20) }, pos := 7, lostAfter := true }
    let s : State := { line .active with events := [e] }
    (after .popEvent s).events = [] ∧
      (after .popEvent s).port.record =
        { r0 := 0xC3000007#32, r1 := 0x14000000#32, r2 := 0x00020000#32, r3 := 0xFFFFFFEC#32 } ∧
      (after .popEvent (line .active)).port.result.code = .empty := by
  decide +kernel

theorem test_unassigned_command :
    (after (.unassignedCommand 0) (line .active)).registerWord 8 = 0x00000003#32 ∧
      (after (.unassignedCommand 200) (line .active)).registerWord 8 = 0x0000C803#32 := by decide +kernel

/-- A claim and a queue entry as TABLE_SEL shows them (R183, R184). -/
theorem test_table_views :
    let s : State :=
      { line .active with
        claims := [claim 4 13 2 302280 60]
        link.txq := [{ payload := .claim 77 2 302280 60, attempts := 1, origin := .agenda, inFlight := true }] }
    (after (.tableSel 2) s).port.record =
        { r0 := 0x8002040D#32, r1 := 0x00049CC8#32, r2 := 60, r3 := 0x00049D04#32 } ∧
      (after (.tableSel 3) s).port.record =
        { r0 := 0xC3110000#32, r1 := 0x0000024D#32, r2 := 0x00049CC8#32, r3 := 60 } ∧
      (after (.tableSel 0x102) s).port.record = Record4.zero ∧ (after (.tableSel 5) s).port.access = .refusedRange := by
  decide +kernel

theorem test_register_writes :
    (after (.registerWrite 4 7) (line .active)).port.args.r0 = 7 ∧
      (after (.registerWrite 0 7) (line .active)).port.access = .refusedFixed ∧
      (after (.registerWrite 16 7) (line .active)).port.access = .refusedVoid := by decide +kernel

theorem test_bytes_carry_commands :
    (State.reset.receiveBytes [1, 3, 0xAB, 0xCD, 0xEF, 1]).pending = [.start] ∧
      (State.reset.receiveBytes [3, 6, 0, 0, 1, 0xF4, 0xFF]).pending = [.configWrite 6 500] ∧
      (State.reset.receiveBytes [1, 9, 0, 0, 5, 3]).pending = [.tableSel 0x503] ∧
      State.reset.receiveBytes [1, 3, 0, 0, 0] = State.reset := by
  decide +kernel

theorem test_captured_word_on_miso :
    (List.range 8).map (fun k => (line .active).misoByte 2 6 k) = [0, 0, 0, 0, 1, 0xF4, 0, 0] ∧
      (List.range 8).map (fun k => (line .active).misoByte 3 6 k) = List.replicate 8 0 := by
  decide +kernel

theorem test_void_transaction :
    (after (.voidTransaction 4 0 0) (line .active)).port.access = .refusedVoid := by decide +kernel

theorem test_configuration_writes :
    (after (.configWrite 8 131071) (line .halted)).itemWord .trackHorizon = 131071 ∧
      (after (.configWrite 8 1023) (line .halted)).port.access = .refusedRange ∧
      (after (.configWrite 8 131071) (line .active)).port.access = .refusedState ∧
      (after (.configWrite 0 0) (line .halted)).port.access = .refusedFixed ∧
      (after (.configWrite 11 0) (line .halted)).port.access = .refusedVoid := by decide +kernel

theorem test_configuration_reads :
    (after (.configRead 34) (line .active)).port.miso = 0 ∧ (after (.configRead 33) (line .active)).port.miso = 0xFFFF00F0#32 ∧
      (after (.configRead 103) (line .active)).port.access = .refusedVoid := by decide +kernel

theorem test_device_reset :
    after (.deviceReset InputLevels.allLow) (line .active) = State.reset ∧
      after (.deviceResetWrite 0xA5) (line .active) = State.reset ∧
      (after (.deviceResetWrite 0xA4) (line .active)).port.access = .refusedRange := by decide +kernel

/-! ## Steps -/

theorem test_front_command_runs_first :
    (stepped { line .halted with pending := [.start, .popEvent] }).pending = [.popEvent] := by decide +kernel

theorem test_period_makes_the_expiry_due :
    (stepped (running 2 .delay .single 0 0 (line .halted))).pending = [] ∧
      (stepped { line .active with link.mark := .running 1 }).pending = [.markTimerExpiry] := by decide +kernel

/-! ## Witnesses: states and operands that meet the hypotheses of the statements -/

theorem witness_EmptyQueuePassesOneMicrosecond :
    State.reset.pending = [] ∧ { line .active with link.mark := .running 1 }.pending = [] := by decide

theorem witness_RegistersAndItemsAfterDeviceReset :
    (0#8).toNat < 16 ∧ (15#8).toNat < 16 ∧ 1 ∈ [1, 4] ∧ 4 ∈ [1, 4] ∧ 2 ∈ [2, 5] ∧ 5 ∈ [2, 5] ∧ 3 ∈ [3, 6] ∧ 6 ∈ [3, 6] := by
  decide

theorem witness_ResetCodeResetsTheDevice : (0xA4#32) ≠ 0x000000A5#32 ∧ (0x1A5#32) ≠ 0x000000A5#32 := by decide

/-- Level pairs by name. -/
def levels (a b : Bool) : EncLevels := { a := a, b := b }

/-- An encoder mode, with the reference and the pins at a pair of levels. -/
def encoder (m : EncoderMode) (l : EncLevels) : State :=
  { line .halted with settings.encoderMode := m, pos.ref := l, pins.enc := l }

theorem witness_LevelChangesMakeCounts :
    ((encoder .quad4 (levels false false)).settings.encoderMode = .quad4 ∧
      ((encoder .quad4 (levels false false)).pos.ref, levels true false) ∈ forwardCycle ∧
      ((encoder .quad4 (levels false false)).pos.ref, levels false true) ∈ reverseCycle ∧
      ((encoder .quad4 (levels false false)).pos.ref, levels true true) ∉ forwardCycle ∧
      ((encoder .quad4 (levels false false)).pos.ref, levels true true) ∉ reverseCycle) ∧
    ((encoder .quad1 (levels false false)).settings.encoderMode = .quad1 ∧
      (encoder .quad1 (levels false false)).pos.ref.a = false ∧ (encoder .quad1 (levels true false)).pos.ref.a = true) ∧
    ((encoder .pulseDir (levels false true)).settings.encoderMode = .pulseDir ∧
      (encoder .pulseDir (levels false true)).pins.enc.a = false ∧
      (encoder .pulseDir (levels true true)).pins.enc.a = true) := by
  decide

theorem witness_LevelChangesMakeCounts_without_a_step :
    let s : State := { encoder .pulseDir (levels false false) with settings.prescale := .by8, pos.sub := 6 }
    (s.CountsForward (levels true true) ∧ s.pos.sub + 1 ≠ s.settings.prescale.counts) ∧
      s.CountsReverse (levels true false) ∧ s.pos.sub ≠ 0 :=
  ⟨⟨⟨rfl, rfl⟩, by decide⟩, ⟨rfl, rfl⟩, by decide⟩

theorem witness_EncoderCountFrame :
    ∃ t, exec (.encoderCount (levels true false)) (encoder .quad4 (levels false false)) = .next t := ⟨_, rfl⟩

/-- In QUAD4 the next pair of the forward cycle counts forward, and that of the reverse cycle in reverse. -/
theorem quad4_counts (s : Station) (h : s.settings.encoderMode = .quad4) :
    s.CountsForward (forwardOf s.pos.ref) ∧ s.CountsReverse (reverseOf s.pos.ref) := by
  unfold Station.CountsForward Station.CountsReverse
  rw [h]
  have key : ∀ a b : Bool, (({ a := a, b := b } : EncLevels), forwardOf { a := a, b := b }) ∈ forwardCycle ∧
      (({ a := a, b := b } : EncLevels), reverseOf { a := a, b := b }) ∈ reverseCycle := by decide
  exact key _ _

theorem witness_StepsReachTheirReceivers_modes :
    let s (m : EncoderMode) (l : EncLevels) := encoder m l
    ((s .quad1 (levels false true)).CountsForward (levels true false) ∧
      (s .quad1 (levels false true)).pos.sub + 1 = (s .quad1 (levels false true)).settings.prescale.counts) ∧
      ((s .quad1 (levels false true)).CountsReverse (levels true true) ∧ (s .quad1 (levels false true)).pos.sub = 0) ∧
      ((s .pulseDir (levels false true)).CountsForward (levels true true) ∧
        (s .pulseDir (levels false true)).pos.sub + 1 =
          (s .pulseDir (levels false true)).settings.prescale.counts) ∧
      (s .pulseDir (levels false false)).CountsReverse (levels true false) ∧
      (s .pulseDir (levels false false)).pos.sub = 0 :=
  ⟨⟨⟨rfl, rfl⟩, rfl⟩, ⟨⟨rfl, rfl⟩, rfl⟩, ⟨⟨rfl, rfl⟩, rfl⟩, ⟨rfl, rfl⟩, rfl⟩

theorem witness_EntriesAreTakenAtTheirPosition_modes :
    let s : State := { encoder .pulseDir (levels false false) with
      ctl.state := .active, pos.count := 1999, pos.matchReg := some 2000, agenda := [entry 2000 0 .none] }
    s.CountsForward (levels true true) ∧ s.pos.sub + 1 = s.settings.prescale.counts ∧
      s.OnlyAgendaAt (s.pos.count + 1) ∧ s.pos.matchReg = some (s.pos.count + 1) :=
  ⟨⟨rfl, rfl⟩, rfl, ⟨fun _ h => (nomatch h), fun _ h => (nomatch h)⟩, rfl⟩

/-- A station one count before position 2000, with one entry due there. -/
def nearMatch (t : Fin 16) (c : ClaimState) : State :=
  { line .active with pos.count := 1999, pos.matchReg := some 2000, agenda := [entry 2000 t c] }

theorem witness_StepsReachTheirReceivers_nothing_due :
    let s : State := { line .active with pos.count := 16777215 }
    s.settings.encoderMode = .quad4 ∧ s.pos.sub + 1 = s.settings.prescale.counts ∧ s.NothingDueAt (s.pos.count + 1) :=
  ⟨rfl, rfl, by decide, fun _ h => (nomatch h), fun _ h => (nomatch h)⟩

/-- A station one count before the end of its settle span. -/
def nearlySettled (st : StationState) : State :=
  { line st with ctl.settleStart := some (1001 - 65552), ctl.resume := if st = .settling then none else some .settling }

theorem witness_StepsReachTheirReceivers_span :
    let s (st : StationState) := nearlySettled st
    (s .settling).settings.encoderMode = .quad4 ∧ (s .settling).pos.sub + 1 = (s .settling).settings.prescale.counts ∧
      (s .settling).pos.matchReg ≠ some ((s .settling).pos.count + 1) ∧ (s .settling).track.head? = none ∧
      (s .settling).ctl.settleStart = some (1001 - 65552) ∧
      Machine.dist ((s .settling).pos.count + 1) (1001 - 65552) =
        (s .settling).settings.claimHorizon.toNat + 2 * (s .settling).settings.skewTolerance.toNat ∧
      (s .settling).ctl.state = .settling ∧ (s .mute).ctl.state = .mute ∧ (s .mute).ctl.resume = some .settling := by
  decide

/-- A station one count before position 2000, at which an item passes the horizon, an entry matches and the settle span
is completed. -/
def allConcerned : State :=
  { line .settling with
    pos.count := 1999
    pos.matchReg := some 2000
    ctl.settleStart := some (2000 - 65552)
    track := [item 2 31 (2000 - 131073), item 1 30 900]
    agenda := [entry 2000 0 .none] }

theorem witness_StepsReachTheirReceivers_all_concerned :
    let m : Station := { allConcerned.toStation with pos.count := 2000 }
    [StepReceiver.track, .agenda, .control].filter m.concerns = [.track, .agenda, .control] ∧
      m.ctl.state = .settling ∧ (nearlySettled .mute).ctl.state ≠ .settling ∧
      ({ (nearlySettled .mute).toStation with pos.count := 1001 } : Station).concerns .control = true ∧
      (nearlySettled .mute).ctl.resume = some .settling := by
  decide +kernel

theorem witness_StepsReachTheirReceivers_horizon :
    let s : State := { allConcerned with pos.matchReg := none, agenda := [], ctl.settleStart := some 900 }
    s.settings.encoderMode = .quad4 ∧ s.pos.sub + 1 = s.settings.prescale.counts ∧
      s.pos.matchReg ≠ some (s.pos.count + 1) ∧ s.ctl.settleStart = some 900 ∧
      Machine.dist (s.pos.count + 1) 900 ≠ s.settings.claimHorizon.toNat + 2 * s.settings.skewTolerance.toNat ∧
      s.track.takeWhile ({ s.toStation with pos.count := 2000 } : Station).beyondHorizon =
        [item 2 31 (2000 - 131073)] := by
  decide +kernel

theorem witness_StepsReachTheirReceivers_reverse :
    let s : State := { nearMatch 0 .none with pos.count := 0, agenda := [entry 8388606 0 .none], pos.matchReg := some 8388606 }
    s.settings.encoderMode = .quad4 ∧ s.pos.sub = 0 ∧ s.pos.matchReg = s.agenda.head?.map Entry.fire ∧
      (∀ e ∈ s.agenda, ahead e.fire (s.pos.count - 1) = true) ∧
      ¬ ∀ e ∈ [entry 8388607 0 .none], ahead e.fire (s.pos.count - 1) = true := by
  decide

theorem witness_EntriesAreTakenAtTheirPosition_several :
    let s : State := { nearMatch 0 .none with agenda := [entry 2000 0 .none, entry 2000 1 .lost, entry 2001 0 .none] }
    s.settings.encoderMode = .quad4 ∧ s.pos.sub + 1 = s.settings.prescale.counts ∧
      s.pos.matchReg = some (s.pos.count + 1) ∧ s.OnlyAgendaAt (s.pos.count + 1) :=
  ⟨rfl, rfl, rfl, fun _ h => (nomatch h), fun _ h => (nomatch h)⟩

theorem witness_EntriesAreTakenAtTheirPosition_unwindowed :
    let s := nearMatch 0 .none
    let e := entry 2000 0 .none
    s.settings.encoderMode = .quad4 ∧ s.pos.sub + 1 = s.settings.prescale.counts ∧ s.OnlyAgendaAt (s.pos.count + 1) ∧
      s.agenda = [e] ∧ s.pos.matchReg = some e.fire ∧ e.fire = s.pos.count + 1 ∧ s.ctl.state ≠ .drifted ∧
      (s.template e.template).condition.satisfied (s.verdictOf e.item) = true ∧ (s.template e.template).report = false ∧
      (s.template e.template).windowed = false ∧ e.claim = .none ∧ s.inhibits (s.template e.template).channel = false ∧
      (s.chan (s.template e.template).channel).run = none :=
  ⟨rfl, rfl, ⟨fun _ h => (nomatch h), fun _ h => (nomatch h)⟩, by decide +kernel⟩

theorem witness_EntriesAreTakenAtTheirPosition_held :
    let s := withTemplate 1 { Template.reset with group := some 7, channel := 3 } (nearMatch 1 (.held 9))
    let e := entry 2000 1 (.held 9)
    s.OnlyAgendaAt (s.pos.count + 1) ∧
      s.settings.encoderMode = .quad4 ∧ s.pos.sub + 1 = s.settings.prescale.counts ∧
      s.agenda = [e] ∧ s.pos.matchReg = some e.fire ∧ e.fire = s.pos.count + 1 ∧ s.ctl.state ≠ .drifted ∧
      (s.template e.template).condition.satisfied (s.verdictOf e.item) = true ∧ (s.template e.template).report = false ∧
      e.claim = .held 9 ∧ s.inhibits (s.template e.template).channel = false ∧
      (s.chan (s.template e.template).channel).run = none :=
  ⟨⟨fun _ h => (nomatch h), fun _ h => (nomatch h)⟩, by decide +kernel⟩

/-- Template 1 windowed, template 2 conditioned on PASS. -/
def judging (st : StationState) : State :=
  withTemplate 1 { Template.reset with group := some 0 } (withTemplate 2 { Template.reset with condition := .pass } (line st))

theorem witness_MatchedEntriesAreJudgedInOrder :
    let u := (judging .active).toStation
    (judging .drifted).ctl.state = .drifted ∧ u.ctl.state ≠ .drifted ∧
      (u.template 2).condition.satisfied (u.verdictOf (entry 0 2 .none).item) = false ∧
      (u.template 1).condition.satisfied (u.verdictOf (entry 0 1 .lost).item) = true ∧ (u.template 1).windowed = true ∧
      (entry 0 1 .lost).claim ≠ .none ∧ (∀ q, (entry 0 1 .lost).claim ≠ .held q) ∧
      (∀ q, (entry 0 1 (.wanted 0)).claim ≠ .held q) ∧ (u.template 0).windowed = false ∧
      (u.template 0).condition.satisfied (u.verdictOf (entry 0 0 .none).item) = true := by
  decide +kernel

theorem witness_MatchedEntriesAreJudgedInOrder_verdict :
    let s : State := { judging .active with track := [item 2 31 900, { item 1 30 950 with verdict := .pass }] }
    { item 1 30 950 with verdict := .pass } ∈ s.track ∧ s.track.Pairwise (fun j k => j.tag ≠ k.tag) := by
  decide

/-- Template 3 fires late up to 40 counts, template 4 too but only for a PASS. -/
def lateFiring (st : StationState) : State :=
  withTemplate 3 { Template.reset with policy := .fireLate, tolerance := 40 }
    (withTemplate 4 { Template.reset with policy := .fireLate, tolerance := 40, condition := .pass } (judging st))

theorem witness_LateEntriesAreHandledInOrder :
    let u := (lateFiring .active).toStation
    (u.template 1).windowed = true ∧ (u.template 0).policy = .drop ∧ (u.template 3).tolerance.toNat < 41 ∧
      (u.template 3).windowed = false ∧ (u.template 3).policy = .fireLate ∧ 40 ≤ (u.template 3).tolerance.toNat ∧
      (u.template 4).windowed = false ∧ (u.template 4).policy = .fireLate ∧ 0 ≤ (u.template 4).tolerance.toNat ∧
      (lateFiring .drifted).ctl.state = .drifted ∧ u.ctl.state ≠ .drifted ∧
      (u.template 4).condition.satisfied (u.verdictOf { origin := 1, seq := 30 }) = false ∧
      (u.template 3).condition.satisfied (u.verdictOf { origin := 1, seq := 30 }) = true := by
  decide +kernel

theorem witness_LineEventsBeginAndYield :
    let s : State := { line .settling with link.txq := [waiting .mark .link], link.idle := true }
    (s.link.txq = waiting .mark .link :: [] ∧ s.ctl.state = .settling ∧ s.link.idle = true) ∧
      (line .active).link.txq = [] ∧ (line .joining).link.idle = false ∧
      ((line .drifted).ctl.state ≠ .settling ∧ (line .drifted).ctl.state ≠ .active) ∧
      (sending .active .mark 3).headInFlight = true ∧ s.headInFlight = false := by
  decide

theorem witness_FailedAttemptsAreCounted :
    let s : State := { sending .active (.sight 5 7 0 0) 2 with link.fails := 14 }
    ∃ e, s.link.txq = e :: [] ∧ e.inFlight = true ∧ e.attempts < 3 ∧ s.link.fails < 15 := ⟨_, rfl, by decide⟩

theorem witness_FourthFailureDropsTheFrame :
    let s : State := { sending .active (.claim 9 0 2000 1) 3 with agenda := [entry 2010 0 (.wanted 9)] }
    (∃ e, s.link.txq = e :: [] ∧ e.inFlight = true ∧ e.attempts = 3 ∧ s.link.fails < 15 ∧
      e.payload = .claim 9 0 2000 1 ∧ s.agenda.find? (Entry.wants 9) = some (entry 2010 0 (.wanted 9))) ∧
    ∃ e, (sending .active (.yield 9) 3).link.txq = e :: [] ∧ e.inFlight = true ∧ e.attempts = 3 ∧
      ∀ q g p l, e.payload = .claim q g p l → ∀ f ∈ (sending .active (.yield 9) 3).agenda, f.claim ≠ .wanted q :=
  ⟨⟨_, rfl, by decide⟩, _, rfl, rfl, rfl, fun _ _ _ _ h => (nomatch h)⟩

theorem witness_SixteenthFailureEntersMute :
    let s (n : Nat) : State := { sending .settling (.verdict { origin := 0, seq := 0 } 1) n with link.fails := 15 }
    (∃ e, (s 2).link.txq = e :: [] ∧ e.inFlight = true ∧ (s 2).link.fails = 15 ∧ (s 2).ctl.state = .settling ∧
      e.attempts < 3) ∧
    ∃ e, (s 3).link.txq = e :: [] ∧ e.inFlight = true ∧ (s 3).link.fails = 15 ∧ (s 3).ctl.state = .settling ∧
      e.attempts = 3 := ⟨⟨_, rfl, by decide⟩, _, rfl, by decide⟩

theorem witness_SixteenthFailureEntersMute_flush :
    let s : State := { line .mute with agenda := [entry 2010 0 (.wanted 9), entry 2020 1 (.wanted 10)] }
    (waiting (.sight 5 900 0 0) .sensor).payload = .sight 5 900 0 0 ∧
      (waiting (.claim 10 0 2000 1) .agenda).payload = .claim 10 0 2000 1 ∧
      s.agenda.find? (Entry.wants 10) = some (entry 2020 1 (.wanted 10)) ∧ (∀ f ∈ s.agenda, f.claim ≠ .wanted 11) ∧
      (waiting .mark .link).payload.kind ≠ .sight ∧ (waiting .mark .link).payload.kind ≠ .claim := by
  decide

theorem witness_FaultyFramesAreRefused :
    (decoding .mute).receiverOn = true ∧ (decoding .mute).link.receiving = true ∧
      receive (List.replicate 6 false) = .fault .short none ∧ (line .halted).receiverOn = false ∧
      (line .active).link.receiving = false := by
  decide +kernel

theorem witness_BrokenFramesAreFound :
    (0#16) ≠ crc (bodyBits { sender := 3, stamp := 9, payload := .mark }) ∧ ((5#3) = 5 ∨ (5#3) = 6) ∧
      ((6#3) = 5 ∨ (6#3) = 6) := by
  decide +kernel

theorem witness_BrokenFramesAreFound_short :
    let f : Frame := { sender := 3, stamp := 9, payload := .mark }
    0 < (frameLevels f).length ∧ receive ([] ++ List.replicate 5 false) = .unfinished ∧
      receive ((frameLevels f).take 12 ++ List.replicate 5 true) = .unfinished ∧
      (1 ≤ 3 ∧ 3 + 6 ≤ (frameBits f).length) ∧ (9 ≤ 9 ∧ 43 + 6 ≤ (frameBits f).length) := by
  decide +kernel

theorem witness_TimersExpire :
    (line .active).link.mark ≠ .stopped ∧ (line .active).link.txq = [] ∧ (fullQueue .active).link.mark ≠ .stopped ∧
      (fullQueue .active).link.txq ≠ [] ∧ (line .drifted).link.mark = .stopped ∧ (line .joining).ctl.state = .joining ∧
      (line .halted).ctl.state ≠ .joining := by
  decide

theorem witness_TimersExpire_with_an_own_take :
    let s := sending .active .mark 0
    (line .active).link.ownTaken = false ∧ (fullQueue .active).link.ownTaken = false ∧ s.receiverOn = true ∧
      s.headInFlight = true ∧ ∃ t, exec (.frameTake { sender := 4, stamp := 0, payload := .mark }) s = .next t ∧
        t.link.ownTaken = true ∧ t.link.mark ≠ .stopped ∧ ∃ u, exec .markTimerExpiry s = .next u :=
  ⟨by decide, by decide, by decide, by decide, _, rfl, by decide, by decide, _, rfl⟩

/-- An own take and an expiry of the mark timer that come together leave the queue empty in both orders; once the idle gap
is seen after the take, an expiry enqueues a MARK. -/
theorem test_own_take_and_mark_expiry :
    let take : Instr := .frameTake { sender := 4, stamp := 0, payload := .mark }
    let s := sending .active .mark 0
    (after .markTimerExpiry (after take s)).link.txq = [] ∧ (after take (after .markTimerExpiry s)).link.txq = [] ∧
      (after .markTimerExpiry (after take s)).link.mark = (after take (after .markTimerExpiry s)).link.mark ∧
      (after .markTimerExpiry (after .idleGap (after take s))).link.txq = [waiting .mark .link] := by
  decide +kernel

theorem decoding_of {s : State} (h : s.receiverOn = true) (h' : s.headInFlight = false) (h'' : s.link.receiving = true) :
    s.Decoding := ⟨h, h', h''⟩

theorem witness_TakesRunInOrder :
    (line .halted).receiverOn = false ∧ ((line .active).headInFlight = false ∧ (line .active).link.receiving = false) ∧
      (decoding .joining).Decoding ∧
      ∃ e, (sending .active .mark 0).receiverOn = true ∧ (sending .active .mark 0).link.txq = e :: [] ∧
        e.inFlight = true ∧ e.payload = .mark :=
  ⟨rfl, by decide, decoding_of rfl rfl rfl, _, rfl, rfl, rfl, rfl⟩

theorem witness_TakesRunInOrder_kinds :
    let f (p : Payload) : Frame := { sender := 4, stamp := 1000, payload := p }
    (f .mark).sender = (line .active).settings.stationNumber ∧ (f .mark).sender ≠ State.reset.settings.stationNumber ∧
      (f (.sight 255 1000 3 15)).payload = .sight 255 1000 3 15 ∧
      (f (.verdict { origin := 31, seq := 0 } 3)).payload = .verdict { origin := 31, seq := 0 } 3 ∧
      (f (.retire { origin := 0, seq := 255 })).payload = .retire { origin := 0, seq := 255 } ∧
      (f (.claim 0 7 16777215 65535)).payload = .claim 0 7 16777215 65535 ∧ (f (.yield 0)).payload = .yield 0 := by
  decide

/-- An own CLAIM on the line at stamp 1000, with or without an entry that waits for it. -/
def ownClaim (start : Pos) (es : List Entry) : State := { sending .active (.claim 9 3 start 20) 0 with agenda := es }

/-- The claim that the own CLAIM names. -/
def ownRecord (start : Pos) : Claim := claim 4 9 3 start 20

theorem witness_OwnClaimsAreHeldOrLost :
    let s (start : Pos) (es : List Entry) := ownClaim start es
    let b (start : Pos) : Station :=
      { (s start []).toStation with link.receiving := false, link.drive := .released, link.txq := [], link.fails := 0,
                                    link.ownTaken := true, link.mark := (s start []).fullMark, claims := [] }
    (∃ e, (s 1001 []).link.txq = e :: [] ∧ e.inFlight = true ∧ e.payload = .claim 9 3 1001 20) ∧
      (s 1001 []).receiverOn = true ∧
      (s 1001 [entry 1010 0 (.wanted 9)]).agenda.find? (Entry.wants 9) = some (entry 1010 0 (.wanted 9)) ∧
      (s 1001 []).agenda.find? (Entry.wants 9) = none ∧
      (b 1001).claimRefusal (s 1001 []).pos.capture (ownRecord 1001) = none ∧
      (b 1000).claimRefusal (s 1000 []).pos.capture (ownRecord 1000) = some .late ∧
      ([] : List TxEntry).length < 16 :=
  ⟨⟨_, rfl, rfl, rfl⟩, by decide +kernel⟩

/-- 16 entries behind the CLAIM on the line, which no run comes to. -/
theorem witness_OwnClaimsAreHeldOrLost_full :
    let s : State := { ownClaim 1001 [] with link.txq := (ownClaim 1001 []).link.txq ++ (fullQueue .active).link.txq }
    let b : Station :=
      { s.toStation with link.receiving := false, link.drive := .released, link.txq := (fullQueue .active).link.txq,
                         link.fails := 0, link.ownTaken := true, link.mark := s.fullMark, claims := [] }
    (∃ e, s.link.txq = e :: (fullQueue .active).link.txq ∧ e.inFlight = true ∧ e.payload = .claim 9 3 1001 20) ∧
      s.receiverOn = true ∧ s.claims.filter (fun c => ahead c.finish s.pos.capture) = [] ∧
      s.agenda.find? (Entry.wants 9) = none ∧ b.claimRefusal s.pos.capture (ownRecord 1001) = none ∧
      16 ≤ (fullQueue .active).link.txq.length :=
  ⟨⟨_, rfl, rfl, rfl⟩, by decide +kernel⟩

theorem witness_TheFirstTakeAligns :
    let s := decoding .joining
    let f : Frame := { sender := 7, stamp := 16000000, payload := .mark }
    s.Decoding ∧ s.ctl.state = .joining ∧ s.agenda = [] ∧ f.payload = .mark ∧
      (waiting (.sight 5 900 0 0) .sensor).payload = .sight 5 900 0 0 ∧
      (waiting (.sight 5 900 0 0) .sensor).inFlight = false ∧ (waiting .mark .link).payload.kind ≠ .sight :=
  ⟨decoding_of rfl rfl rfl, by decide⟩

/-- A MARK with a skew at a station whose capture is 1000. It bears that station's own number. -/
def skewed (k : Pos) : Frame := { sender := 4, stamp := 1000 + k, payload := .mark }

theorem witness_TheSkewCheckEntersDrifted :
    (decoding .settling).Decoding ∧ (decoding .settling).ctl.state = .settling ∧
      (skewed 8).payload = .mark ∧
      (((skewed 8).stamp - (decoding .settling).pos.capture).toInt.natAbs ≤
        (decoding .settling).settings.skewTolerance.toNat) ∧
      ((decoding .settling).settings.skewTolerance.toNat <
        ((skewed (-9)).stamp - (decoding .settling).pos.capture).toInt.natAbs) :=
  ⟨decoding_of rfl rfl rfl, by decide⟩

theorem witness_DriftIsResolvedByCases :
    let s := line .drifted
    let tol := s.settings.skewTolerance.toNat
    s.ctl.state = .drifted ∧ s.pos.suspect = some { station := 2, skew := 40 } ∧ s.ctl.resume = some .active ∧
      (8 : Pos).toInt.natAbs ≤ tol ∧ tol < (9 : Pos).toInt.natAbs ∧ (7 : Station5) ≠ 2 ∧
      tol < (48 : Pos).toInt.natAbs ∧ ((48 : Pos) - 40).toInt.natAbs ≤ tol ∧
      tol < (49 : Pos).toInt.natAbs ∧ tol < ((49 : Pos) - 40).toInt.natAbs := by
  decide

theorem witness_MuteIsLeftByResumeOrCleanTakes :
    let s (n : Nat) : State := { decoding .mute with link.goodRun := n }
    (s 30).Decoding ∧ (s 31).Decoding ∧ (s 30).ctl.state = .mute ∧ (s 30).ctl.resume = some .active ∧
      (skewed 0).payload = .mark ∧ (s 30).link.goodRun < 31 ∧ (s 31).link.goodRun = 31 ∧
      ((skewed (-8)).stamp - (s 31).pos.capture).toInt.natAbs ≤ (s 31).settings.skewTolerance.toNat :=
  ⟨decoding_of rfl rfl rfl, decoding_of rfl rfl rfl, by decide⟩

theorem witness_EveryTakePurges :
    (decoding .drifted).Decoding ∧ (sending .active (.yield 0) 3).receiverOn = true ∧
      (sending .active (.yield 0) 3).headInFlight = true ∧ (skewed 0).payload.kind ≠ .claim ∧
      (skewed 0).payload.kind ≠ .yield := ⟨decoding_of rfl rfl rfl, rfl, rfl, by decide, by decide⟩

theorem witness_StationsAgreeOnClaims :
    let c := [claim 6 9 0 1010 100]
    let own : State := { sending .active (.claim 9 3 2000 20) 0 with claims := c }
    let other : State := { decoding .drifted with claims := c, settings.stationNumber := 5 }
    own.receiverOn = true ∧ own.ownFrame = some { sender := 4, stamp := 1000, payload := .claim 9 3 2000 20 } ∧
      other.Decoding ∧ own.settings.claimHorizon = other.settings.claimHorizon ∧ own.claims = other.claims :=
  ⟨rfl, rfl, decoding_of rfl rfl rfl, rfl, rfl⟩

theorem witness_ClaimChecksInOrder :
    let s (cs : List Claim) : Station := { (line .active).toStation with claims := cs, settings.claimHorizon := 256 }
    let c := claim 1 2 3 1001 255
    ahead (claim 1 2 3 1000 1).start 1000 = false ∧
      (ahead (claim 1 2 3 1001 256).start 1000 = true ∧
        (s []).settings.claimHorizon.toNat < Machine.dist (claim 1 2 3 1001 256).finish 1000) ∧
      (ahead c.start 1000 = true ∧ Machine.dist c.finish 1000 ≤ (s []).settings.claimHorizon.toNat) ∧
      (∃ d ∈ (s [claim 1 2 0 1001 1]).claims, d.tag = c.tag) ∧ (∀ d ∈ (s [claim 9 2 3 1255 1]).claims, d.tag ≠ c.tag) ∧
      (∃ d ∈ (s [claim 9 2 3 1255 1]).claims, d.group = c.group ∧ d.length ≠ 0 ∧ c.length ≠ 0 ∧
        (c.start - 1000).toInt < (d.start - 1000).toInt + d.length.toNat ∧
        (d.start - 1000).toInt < (c.start - 1000).toInt + c.length.toNat) ∧
      (∀ d ∈ (s [claim 9 2 3 1256 1]).claims, d.group = c.group → d.length = 0 ∨ c.length = 0 ∨
        (d.start - 1000).toInt + d.length.toNat ≤ (c.start - 1000).toInt ∨
        (c.start - 1000).toInt + c.length.toNat ≤ (d.start - 1000).toInt) ∧
      32 ≤ (s (List.replicate 32 (claim 9 2 0 1256 1))).claims.length ∧
      (s (List.replicate 31 (claim 9 2 0 1256 1))).claims.length < 32 ∧ (s []).claimRefusal 1000 c = none ∧
      ((s [claim 1 2 0 1001 1]).claimRefusal 1000 c).isSome = true := by
  decide +kernel

theorem witness_YieldsRemoveTheirClaim :
    let s : State := { decoding .active with claims := [claim 7 1 0 2000 10, claim 7 2 0 2010 10] }
    let f : Frame := { sender := 7, stamp := 1008, payload := .yield 1 }
    s.Decoding ∧ s.ctl.state = .active ∧ f.payload = .yield 1 ∧
      (f.stamp - s.pos.capture).toInt.natAbs ≤ s.settings.skewTolerance.toNat ∧
      s.claims.Pairwise (fun c d => c.tag ≠ d.tag) ∧
      ∃ e, (sending .active (.yield 1) 0).receiverOn = true ∧ (sending .active (.yield 1) 0).link.txq = e :: [] ∧
        e.inFlight = true ∧ e.payload = .yield 1 :=
  ⟨decoding_of rfl rfl rfl, by decide, rfl, by decide, by decide, _, rfl, rfl, rfl, rfl⟩

theorem witness_SightChecksInOrder :
    let s (js : List Item) : Station := { (line .active).toStation with track := js }
    let i := item 1 30 868929
    ahead (item 1 30 1000001).sighting 1000000 = true ∧ ahead (item 1 30 1000000).sighting 1000000 = false ∧
      (s []).settings.trackHorizon.toNat < Machine.dist 1000000 868927 ∧
      Machine.dist 1000000 868928 ≤ (s []).settings.trackHorizon.toNat ∧
      Machine.dist 1000000 i.sighting ≤ (s []).settings.trackHorizon.toNat ∧ (∃ j ∈ (s [i]).track, j.tag = i.tag) ∧
      (∀ j ∈ (s (List.replicate 48 (item 2 0 0))).track, j.tag ≠ i.tag) ∧
      48 ≤ (s (List.replicate 48 (item 2 0 0))).track.length ∧ (s (List.replicate 47 (item 2 0 0))).track.length < 48 := by
  decide +kernel

theorem witness_VerdictsAreMerged :
    let tracking : Station := { (line .active).toStation with track := [item 3 41 900] }
    (∃ i ∈ tracking.track, i.tag = { origin := 3, seq := 41 }) ∧ (∀ i ∈ tracking.track, i.tag ≠ { origin := 6, seq := 99 }) ∧
      (item 3 41 900).verdict = .undecided ∧ ((item 3 41 900).merge .pass 1).verdict = .pass ∧
      ((item 3 41 900).merge .reject 1).verdict = .reject ∧
      [(false, (1 : Station5)), (true, 2), (true, 3)].find? Prod.fst = some (true, 2) := by
  decide

theorem witness_RemovalCancelsTheEntries :
    let s := args 31 255 0 0 { line .active with track := [item 31 255 900] }
    s.port.args.r0.toNat = 31 ∧ s.port.args.r1.toNat = 255 ∧
      (∃ i ∈ s.track, i.tag = { origin := BitVec.ofNat 5 31, seq := BitVec.ofNat 8 255 }) ∧
      (∀ i ∈ (line .active).track, i.tag ≠ { origin := 0, seq := 0 }) ∧ 31 < (args 32 0 0 0 s).port.args.r0.toNat ∧
      255 < (args 0 256 0 0 s).port.args.r1.toNat := by
  decide

/-- The removal of an item whose two entries are HELD and WANTED gives the YIELD of the one and withdraws the CLAIM of the
other. -/
theorem test_removeItem_releases_the_claims :
    let s : Station := { (line .active).toStation with
      track := [item 1 30 900]
      agenda := [entry 2000 0 (.held 9), entry 2100 1 (.wanted 17)]
      link.txq := [waiting (.claim 17 0 2080 60) .agenda] }
    (s.removeItem { origin := 1, seq := 30 }).track = [] ∧ (s.removeItem { origin := 1, seq := 30 }).agenda = [] ∧
      (s.removeItem { origin := 1, seq := 30 }).link.txq = [waiting (.yield 9) .agenda] := by
  decide +kernel

theorem witness_TemplatesMakeEntries :
    let s : Station := agendaExample.toStation
    let full : Station := { s with agenda := List.replicate 64 (entry 300000 0 .none) }
    let i := item 1 31 200030
    (s.template 3).enabled = false ∧ (s.template 0).origins.getLsbD (item 5 0 0).tag.origin.toNat = false ∧
      ((s.template 0).enabled = true ∧ (s.template 0).origins.getLsbD i.tag.origin.toNat = true ∧
        (s.template 0).lanes.getLsbD i.lane.toNat = true ∧ (s.template 0).classes.getLsbD i.cls.toNat = true) ∧
      ((s.template 1).enabled = true ∧ (s.template 1).origins.getLsbD i.tag.origin.toNat = true ∧
        (s.template 1).lanes.getLsbD i.lane.toNat = true ∧ (s.template 1).classes.getLsbD i.cls.toNat = true) ∧
      ahead ((198310 : Pos) + (s.template 0).offset.setWidth 24) s.pos.count = false ∧
      ahead ((198311 : Pos) + (s.template 0).offset.setWidth 24) s.pos.count = true ∧
      ahead (i.sighting + (s.template 0).offset.setWidth 24) s.pos.count = true ∧ 64 ≤ full.agenda.length ∧
      s.agenda.length < 64 ∧ (s.template 0).group = none ∧ (s.template 1).group = some 0 := by
  decide +kernel

theorem witness_ClaimsAreMadeInActive :
    let s : State := { line .active with claims := [claim 9 9 0 1010 10], link.txq := [waiting (.claim 1 1 1010 10) .agenda] }
    (line .mute).ctl.state ≠ .active ∧ s.ctl.state = .active ∧ s.precheckFails 0 1019 1 = true ∧
      s.precheckFails 1 1009 2 = true ∧ s.precheckFails 0 1020 1 = false ∧ s.link.txq.length < 16 ∧
      16 ≤ (fullQueue .active).link.txq.length ∧ (fullQueue .active).precheckFails 0 1019 1 = false := by
  decide +kernel

theorem witness_LeavingEntriesReleaseTheirClaims :
    let s := (line .active).toStation
    (entry 1001 0 .none).claim = .none ∧ (entry 1001 0 .lost).claim = .lost ∧
      (entry 1001 0 (.held 9)).claim = .held 9 ∧ (entry 1001 0 (.wanted 9)).claim = .wanted 9 ∧
      ahead ((1001 : Pos) - (s.template 0).lead.setWidth 24) s.pos.count = true ∧
      ahead ((1000 : Pos) - (s.template 0).lead.setWidth 24) s.pos.count = false ∧ s.link.txq.length < 16 ∧
      16 ≤ (fullQueue .active).link.txq.length ∧ (∃ x ∈ (sending .active (.claim 9 0 0 1) 0).link.txq, x.inFlight = true) := by
  decide +kernel

theorem witness_SensorEdgesMakeSightings :
    let s := gapExample 1000 (some 936)
    let c := s.settings.sensors.get 0
    (false = (s.sense.inputs.get 0).level ∧ true ≠ (s.sense.inputs.get 0).level) ∧ c.enabled = true ∧
      (c.edge = .rising ↔ true = true) ∧ ((line .active).settings.sensors.get 3).enabled = false ∧
      ¬(c.edge = .rising ↔ false = true) ∧ (line .halted).ctl.state = .halted ∧ (line .joining).ctl.state = .joining ∧
      (line .mute).ctl.state = .mute ∧ s.ctl.state = .active ∧ (s.sense.inputs.get 0).last = some 936 ∧
      Machine.dist (999 : Pos) 936 < c.gap.toNat ∧ c.gap.toNat ≤ Machine.dist s.pos.count 936 ∧ s.link.txq.length < 16 ∧
      16 ≤ (fullQueue .active).link.txq.length := by
  decide +kernel

theorem witness_PostedFramesAreEnqueued :
    let now := args 3 15 1 0 (line .settling)
    let given := args 0 0 0 16777215 (line .active)
    let named := args 31 255 2 0 (line .active)
    (now.ctl.state = .settling ∧ now.port.args.r0 = (3 : BitVec 2).setWidth 32 ∧
        now.port.args.r1 = (15 : BitVec 4).setWidth 32 ∧ now.port.args.r2 = 1) ∧
      (given.port.args.r2 = 0 ∧ given.port.args.r3 = (16777215 : Pos).setWidth 32) ∧
      (named.port.args.r0 = (31 : Station5).setWidth 32 ∧ named.port.args.r1 = (255 : Seq8).setWidth 32 ∧
        named.port.args.r2 = (2 : BitVec 2).setWidth 32) ∧
      named.link.txq.length < 16 ∧ 16 ≤ (args 0 0 1 0 (fullQueue .active)).link.txq.length := by
  decide +kernel

theorem witness_RefusedCommandsChangeNothing :
    let bad (a b c d : Word) := args a b c d (line .active)
    (line .active).ctl.state ≠ .halted ∧ (line .halted).ctl.state = .halted ∧ (line .active).ctl.state ≠ .mute ∧
      ((line .mute).ctl.state ≠ .settling ∧ (line .mute).ctl.state ≠ .active) ∧ (bad 0 0 0 0).ctl.state = .active ∧
      3 < (bad 4 0 1 0).port.args.r0.toNat ∧ 15 < (bad 0 16 1 0).port.args.r1.toNat ∧
      1 < (bad 0 0 2 0).port.args.r2.toNat ∧
      ((bad 0 0 0 16777216).port.args.r2 = 0 ∧ 16777215 < (bad 0 0 0 16777216).port.args.r3.toNat) ∧
      31 < (bad 32 0 1 0).port.args.r0.toNat ∧ 255 < (bad 0 256 1 0).port.args.r1.toNat ∧
      ((bad 0 0 3 0).port.args.r2 ≠ 1 ∧ (bad 0 0 3 0).port.args.r2 ≠ 2) ∧ (0#8) = 0 ∧ 11 ≤ (11#8).toNat := by
  decide +kernel

/-- Template 7 with an offset, a window length and a group, for START validation. -/
def validating (offset length : BitVec 16) (group : Option (BitVec 3)) : State :=
  withTemplate 7 { Template.reset with enabled := true, offset := offset, length := length, group := group }
    { line .halted with settings.trackHorizon := 1024, settings.claimHorizon := 256 }

/-- OUT3 and OUT1 chained to each other. -/
def chained : State :=
  withChannel 3 { ChannelSettings.reset with chained := true, chainChannel := 1 }
    (withChannel 1 { ChannelSettings.reset with chained := true, chainChannel := 3 } (line .halted))

theorem witness_StartIsRefusedOrAccepted :
    chained.ctl.state = .halted ∧ chained.validate = some (.refusedChain, 1) ∧ (line .halted).validate = none := by
  decide +kernel

theorem witness_ValidationFindsTheFirstFault :
    let low (s : State) (u : Fin 16) : Prop :=
      (s.template u).enabled = true → (s.template u).offset.toNat < s.settings.trackHorizon.toNat
    let small (s : State) (u : Fin 16) : Prop :=
      (s.template u).enabled = true → (s.template u).group ≠ none →
        (s.template u).offset.toNat + (s.template u).length.toNat ≤ s.settings.claimHorizon.toNat
    (((validating 1024 1 none).template 7).enabled = true ∧
        (validating 1024 1 none).settings.trackHorizon.toNat ≤ ((validating 1024 1 none).template 7).offset.toNat ∧
        ∀ u, u < 7 → low (validating 1024 1 none) u) ∧
      ((∀ u, low (validating 1023 1 none) u) ∧ ∀ u, small (validating 1023 1 none) u) ∧
      ((∀ u, low (validating 200 57 (some 0)) u) ∧ ((validating 200 57 (some 0)).template 7).enabled = true ∧
        ((validating 200 57 (some 0)).template 7).group ≠ none ∧
        (validating 200 57 (some 0)).settings.claimHorizon.toNat <
          ((validating 200 57 (some 0)).template 7).offset.toNat +
            ((validating 200 57 (some 0)).template 7).length.toNat ∧
        ∀ u, u < 7 → small (validating 200 57 (some 0)) u) ∧
      (∀ u, small (validating 200 56 (some 0)) u) ∧
      ((∀ u, low chained u) ∧ ∀ u, small chained u) ∧
      (chained.ctl.state = .halted ∧ chained.validate = some (.refusedChain, 1)) := by
  decide +kernel

theorem witness_ValidationFindsTheFirstFault_chains :
    (∀ d : Fin 4, ∃ n, (line .halted).chainAfter n d = none) ∧ (∀ n, chained.chainAfter n 1 ≠ none) ∧
      ∀ e : Fin 4, e < 1 → ∃ n, chained.chainAfter n e = none := by
  have h1 : chained.chainNext 1 = some 3 := by decide +kernel
  have h3 : chained.chainNext 3 = some 1 := by decide +kernel
  have h : ∀ n, chained.chainAfter n 1 ≠ none ∧ chained.chainAfter n 3 ≠ none := by
    intro n
    induction n with
    | zero => exact ⟨by decide, by decide⟩
    | succ n ih => simpa only [Station.chainAfter, h1, h3, Option.bind_some] using ih.symm
  exact ⟨fun d => ⟨1, by revert d; decide +kernel⟩, fun n => (h n).1, fun e he => ⟨1, by revert e; decide +kernel⟩⟩

theorem witness_StopHaltsAndClears : (line .joining).ctl.state ≠ .halted ∧ (line .mute).ctl.state ≠ .halted := by decide

/-- OUT1 with a role on X2, whose level is given. -/
def auxChannel (role : AuxRole) (level : Bool) : State :=
  withChannel 1 { ChannelSettings.reset with role := role, input := 2 }
    { line .active with pins.aux := Vector.replicate 4 level }

theorem witness_ForceFireLoadsAnIdleChannel :
    let s := args 1 1 0 0 (auxChannel .inhibit true)
    let busy := running 3 .low .burst 255 0 (args 3 0 0 0 (line .active))
    (s.port.args.r0.toNat = (1 : Fin 4).val ∧ s.port.args.r1 = 1 ∧ s.inhibits 1 = true) ∧
      (busy.port.args.r0.toNat = (3 : Fin 4).val ∧ busy.port.args.r1 = 0 ∧ busy.inhibits 3 = false ∧
        (busy.chan 3).run.isSome = true) ∧
      (busy.inhibits 0 = false ∧ (busy.chan 0).run = none) ∧ 3 < (args 4 0 0 0 s).port.args.r0.toNat ∧
      1 < (args 0 2 0 0 s).port.args.r1.toNat ∧
      Form.reset = (if (Channel.reset.slot .a).pending then (Channel.reset.slot .a).staged else (Channel.reset.slot .a).live) := by
  decide +kernel

theorem witness_PhasesFollowOneAnother :
    let s (p : Phase) (k : FormKind) (n : Nat) (cap : BitVec 16) := running 1 p k n cap (auxChannel .hold true)
    ((s .delay .single 0 0).chan 1).run = some (runOf .delay .single 0 0) ∧
      ((s .low .burst 1 0).chan 1).run = some (runOf .low .burst 1 0) ∧
      ((s .high .burst 1 0).chan 1).run = some (runOf .high .burst 1 0) ∧ (1 : Nat) ≠ 0 ∧
      (((s .high .held 0 1).chan 1).run = some (runOf .high .held 0 1) ∧ (s .high .held 0 1).holds 1 = true ∧
        (1 : BitVec 16) ≠ 0) ∧
      ((line .active).chan 1).run = none := by
  decide +kernel

theorem witness_SequencesEndAndChain :
    let s (p : Phase) (k : FormKind) (cap : BitVec 16) (level : Bool) := running 1 p k 0 cap (auxChannel .hold level)
    let chainOn (t : State) := withChannel 1 { t.settings.channels.get 1 with chained := true, chainChannel := 2 } t
    ((s .high .single 0 false).chan 1).run = some (runOf .high .single 0 0) ∧
      ((s .high .burst 0 false).chan 1).run = some (runOf .high .burst 0 0) ∧
      (((s .high .held 5 false).chan 1).run = some (runOf .high .held 0 5) ∧ (s .high .held 5 false).holds 1 = false) ∧
      (s .high .held 0 true).holds 1 = true ∧ ((s .high .single 0 false).settings.channels.get 1).chained = false ∧
      ((chainOn (s .high .single 0 false)).ctl.state ≠ .halted ∧
        ((chainOn (s .high .single 0 false)).settings.channels.get 1).chained = true) ∧
      (((s .hold .held 5 true).chan 1).run = some (runOf .hold .held 0 5) ∧ (s .hold .held 5 true).holds 1 = true) ∧
      (chainOn (s .hold .held 5 true)).holds 1 = true ∧
      (((chainOn (s .hold .held 5 false)).chan 1).run = some (runOf .hold .held 0 5) ∧
        (chainOn (s .hold .held 5 false)).holds 1 = false ∧ (chainOn (s .hold .held 5 false)).ctl.state ≠ .halted ∧
        ((chainOn (s .hold .held 5 false)).settings.channels.get 1).chained = true) := by
  decide +kernel

theorem witness_AuxiliaryInputsCutAndRelease :
    let cut := running 1 .delay .single 0 0 (auxChannel .inhibit false)
    let hold := running 1 .hold .held 0 9 (auxChannel .hold true)
    let a (s : State) (l : Bool) : State := { s with pins.aux := s.pins.aux.set 2 l }
    ((cut.chan 1).run = some (runOf .delay .single 0 0) ∧ cut.inhibits 1 = false ∧ (a cut true).inhibits 1 = true) ∧
      ((hold.chan 1).run = some (runOf .hold .held 0 9) ∧ hold.holds 1 = true ∧ (a hold false).holds 1 = false) ∧
      (∀ d, d ≠ 1 → (cut.chan d).run = none) ∧ (∀ d, d ≠ 1 → (hold.chan d).run = none) ∧
      (hold.settings.channels.get 1).chained = false ∧ (∀ c, ((line .active).chan c).run = none) := by
  decide +kernel

/-- In HALTED the release ends HOLD and follows no chain, though the change releases the chain channel too. -/
theorem witness_AuxiliaryInputsCutAndRelease_halted :
    let h : State := { running 1 .hold .held 0 9 (auxChannel .hold true) with ctl.state := .halted }
    let s : State := withChannel 2 { ChannelSettings.reset with role := .inhibit, input := 2 }
      (withChannel 1 { h.settings.channels.get 1 with chained := true, chainChannel := 2 } h)
    let a : State := { s with pins.aux := s.pins.aux.set 2 false }
    (s.chan 1).run = some (runOf .hold .held 0 9) ∧ s.holds 1 = true ∧ a.holds 1 = false ∧ s.ctl.state = .halted ∧
      (s.settings.channels.get 1).chained = true ∧ (∀ d, d ≠ 1 → (s.chan d).run = none) ∧
      after (.auxInputChange 2 false) s =
        { a with channels := s.channels.set 1 { s.chan 1 with run := none } } := by
  decide +kernel

theorem witness_AuxiliaryInputsCutAndRelease_chain :
    let chained (r : AuxRole) (s : State) : State :=
      withChannel 2 { ChannelSettings.reset with role := r, input := 2 }
        (withChannel 1 { s.settings.channels.get 1 with chained := true, chainChannel := 2 } s)
    let s (r : AuxRole) := chained r (running 1 .hold .held 0 9 (auxChannel .hold true))
    let a (t : State) : State := { t with pins.aux := t.pins.aux.set 2 false }
    (((s .inhibit).chan 1).run = some (runOf .hold .held 0 9) ∧ (s .inhibit).holds 1 = true ∧
        (a (s .inhibit)).holds 1 = false ∧ ((s .inhibit).settings.channels.get 1).chained = true ∧
        (s .inhibit).ctl.state ≠ .halted ∧ ∀ d, d ≠ 1 → ((s .inhibit).chan d).run = none) ∧
      ((s .inhibit).inhibits 2 = true ∧ (a (s .inhibit)).inhibits 2 = false) ∧
      (s .none).inhibits 2 = (a (s .none)).inhibits 2 ∧
      ((s .inhibit).settings.channels.get 1).chainChannel = 2 := by
  decide +kernel

theorem witness_CommitFormSetsTheFlag :
    (args 3 1 0 0 (line .active)).port.args.r0.toNat = (3 : Fin 4).val ∧
      (args 3 1 0 0 (line .active)).port.args.r1 = 1 ∧ (args 0 0 0 0 (line .active)).port.args.r1 = 0 ∧
      3 < (args 4 0 0 0 (line .active)).port.args.r0.toNat ∧ 1 < (args 0 2 0 0 (line .active)).port.args.r1.toNat := by
  decide +kernel

theorem witness_OutputsFollowPhaseAndPolarity :
    ((line .active).settings.channels.get 0).polarity = .activeHigh ∧
      ((withChannel 3 { ChannelSettings.reset with polarity := .activeLow } (line .active)).settings.channels.get 3).polarity =
        .activeLow := by
  decide +kernel

/-- `n` records of a kind. -/
def recorded (n : Nat) : State :=
  { line .active with events := List.replicate n { fields := { kind := .skew }, pos := 0, lostAfter := false } }

theorem witness_EventsQueueAndPop :
    (recorded 31).events.length < 32 ∧ 32 ≤ (recorded 32).events.length ∧
      (recorded 32).events =
        (recorded 31).events ++ [{ fields := { kind := .skew }, pos := 0, lostAfter := false }] ∧
      (recorded 1).events = { fields := { kind := .skew }, pos := 0, lostAfter := false } :: [] ∧
      (line .active).events = [] := by
  decide +kernel

theorem witness_RegisterWritesByNumber :
    (0xFF04#32).extractLsb' 0 3 = Collection.events.code ∧ (0xFF04#32).extractLsb' 8 8 = 255 ∧
      5 ≤ ((5#32).extractLsb' 0 3).toNat ∧ 14 ∈ ([0, 1, 2, 8, 10, 11, 12, 13, 14] : List (BitVec 8)) ∧
      16 ≤ (16#8).toNat ∧ 4 ≤ (4#8).toNat := by
  decide

theorem witness_RegisterWritesByNumber_bytes :
    ([1, 3, 0, 0, 0] : List (BitVec 8)).length < 6 ∧
      (0x12345678#32).toNat =
        (0x12#8).toNat * 2 ^ 24 + (0x34#8).toNat * 2 ^ 16 + (0x56#8).toNat * 2 ^ 8 + (0x78#8).toNat ∧
      (recorded 32).events[31]? = some { fields := { kind := .skew }, pos := 0, lostAfter := false } ∧
      (recorded 32).events.length ≤ 32 ∧ (line .active).track.length ≤ 0 ∧
      { line .active with track := [item 1 30 900] }.track[0]? = some (item 1 30 900) ∧
      { line .active with agenda := [entry 2000 0 .none] }.agenda[0]? = some (entry 2000 0 .none) ∧
      { line .active with claims := [claim 2 4 0 1200 50] }.claims[0]? = some (claim 2 4 0 1200 50) ∧
      (fullQueue .active).link.txq[15]? = some (waiting .mark .host) := by
  decide +kernel

theorem witness_RegisterAndRecordLayouts :
    (recorded 32).WithinCapacities ∧ (waiting .mark .host).attempts < 4 ∧
      (recorded 1).events = { fields := { kind := .skew }, pos := 0, lostAfter := false } :: [] ∧
      (0x1F04#32).extractLsb' 0 3 = 4 ∧
      (recorded 32).events[((0x1F04#32).extractLsb' 8 8).toNat]? =
        some { fields := { kind := .skew }, pos := 0, lostAfter := false } := by
  unfold Station.WithinCapacities
  decide +kernel

theorem witness_ConfigurationReadsAndRefusals :
    (itemOf 11).itemClass = .void ∧ (itemOf 128).itemClass = .void ∧ (itemOf 0).itemClass = .fixed ∧
      (itemOf 1).itemClass = .locked ∧ (line .active).ctl.state ≠ .halted ∧ (line .halted).ctl.state = .halted ∧
      (itemOf 10).itemClass = .live ∧ (itemOf 10).accepts 33 = false ∧ (itemOf 1).accepts 32 = false := by
  decide +kernel

theorem witness_ConfigurationWritesTakeTheWord :
    ((itemOf 126).itemClass = .live ∧ (itemOf 126).accepts 65535 = true) ∧
      ((itemOf 120).itemClass = .locked ∧ (line .halted).ctl.state = .halted ∧ (itemOf 120).accepts 0xFFFFFFEF = true) := by
  decide +kernel

/-- Every item that is neither VOID nor FIXED takes one of four words in HALTED. -/
theorem witness_ConfigurationWritesTakeTheWord_items :
    ∀ n : BitVec 8, (itemOf n).itemClass = .void ∨ (itemOf n).itemClass = .fixed ∨
      ((itemOf n).itemClass = .live ∨ (itemOf n).itemClass = .locked) ∧
        ([1, 2000, 0x01010001, 0x0001B611] : List Word).any (itemOf n).accepts = true := by
  decide +kernel

/-- In HALTED a SHAPE write puts its fields into the live copy that differs from the staged one, and into both. -/
theorem test_formShape_in_halted_reaches_both_copies :
    let f (d w : BitVec 16) : Form := { delay := d, kind := .single, high := w, low := 7, burst := 1, cap := 9 }
    let s : State := { line .halted with
      channels := (line .halted).channels.set 0
        { (line .halted).chan 0 with slotA := { live := f 1 11, staged := f 2 22, pending := true } } }
    ((after (.configWrite 97 0x03010005#32) s).chan 0).slotA =
      { live := { f 5 11 with kind := .burst, burst := 3 }, staged := { f 5 22 with kind := .burst, burst := 3 },
        pending := true } := by
  decide +kernel

theorem test_templateSelect_takes_its_bits :
    (after (.configWrite 33 0x0001B611#32) (line .halted)).settings.templates.get 0 =
      { Template.reset with enabled := true, lanes := 1, channel := 2, slot := .b, condition := .notReject,
                            report := true, classes := 1 } := by
  decide +kernel

/-- OUT1 runs in HALTED with a role on X2, asserted, while CHANNEL_1_SETTINGS (item 104) takes a word. -/
def rewired (role : AuxRole) (p : Phase) (x : Word) : State × State :=
  let s : State := { running 1 p .held 0 9 (auxChannel role true) with ctl.state := .halted }
  (s, after (.configWrite 104 x) s)

theorem witness_ConfigurationWritesTakeTheWord_settings :
    let kept := rewired .none .low 0x0000F201
    let cut := rewired .none .delay 0x00000220
    let released := rewired .hold .hold 0x00000200
    let both := rewired .hold .hold 0x00000220
    itemOf 104 = .channelSettings 1 ∧ (itemOf 104).itemClass = .locked ∧ kept.1.ctl.state = .halted ∧
      (itemOf 104).accepts 0x00000220 = true ∧ ((line .halted).chan 1).run = none ∧
      (kept.2.port.access = .ok ∧ (kept.1.chan 1).run = some (runOf .low .held 0 9) ∧ kept.2.inhibits 1 = false) ∧
      (cut.1.inhibits 1 = false ∧ cut.2.inhibits 1 = true ∧ (cut.1.chan 1).run = some (runOf .delay .held 0 9)) ∧
      ((released.1.chan 1).run = some (runOf .hold .held 0 9) ∧ released.1.holds 1 = true ∧
        released.2.holds 1 = false ∧ released.2.inhibits 1 = false) ∧
      (both.1.holds 1 = true ∧ both.2.inhibits 1 = true) := by
  decide +kernel

/-! ## A state that meets every invariant, with something in each collection -/

/-- Two items, two entries at one fire position and one that waits for its CLAIM, two claims of different groups, two queue entries, one of them on the
line, and a running channel. -/
def busy : State :=
  running 0 .low .burst 2 0
    { line .active with
      track := [item 1 30 900, { item 2 31 950 with verdict := .reject, source := some 7 }]
      agenda := [entry 2000 0 .none, entry 2000 2 .none, entry 2100 1 (.wanted 17)]
      claims := [claim 2 4 0 1200 50, claim 2 5 1 1210 50]
      pos.matchReg := some 2000
      link.txq := [{ payload := .claim 17 0 2080 60, attempts := 1, origin := .agenda, inFlight := true },
                   waiting (.sight 7 990 0 2) .sensor]
      link.drive := .frame
      link.fails := 1 }

theorem witness_EveryStepKeepsTheRanges :
    busy.WithinCapacities ∧ busy.LinkCountsInRange ∧ busy.SubCountInRange ∧ busy.SettingsInRange := by
  unfold Station.WithinCapacities Station.LinkCountsInRange Station.SubCountInRange Station.SettingsInRange Settings.InRange
  decide +kernel

theorem witness_EveryStepKeepsTheRanges_channels : busy.ChannelsInRange := by
  have h : ∀ c : Fin 4, (busy.chan c).slotA = FormSlot.reset ∧ (busy.chan c).slotB = FormSlot.reset ∧
      ((busy.chan c).run = none ∨ (busy.chan c).run = some (runOf .low .burst 2 0)) := by decide +kernel
  intro c
  obtain ⟨ha, hb, hr⟩ := h c
  have hf : Form.reset.InRange := by unfold Form.InRange; decide
  refine ⟨by rw [ha]; exact hf, by rw [ha]; exact hf, by rw [hb]; exact hf, by rw [hb]; exact hf, ?_⟩
  rcases hr with hr | hr
  · intro r h; rw [hr] at h; cases h
  · intro r h; rw [hr] at h; cases h; unfold Run.InRange runOf; decide

theorem witness_EveryStepKeepsTheLineRules : busy.LineConsistent := by
  unfold Station.LineConsistent
  decide +kernel

theorem witness_EveryStepKeepsTheLineRules_mute :
    let s : State := { line .mute with link.drive := .breaks, pending := [.sensorInputChange 0 true] }
    s.LineConsistent ∧ s.ctl.state = .mute ∧ ∃ t, step s = .next t ∧ t.ctl.state = .mute := by
  unfold Station.LineConsistent
  exact ⟨by decide +kernel, rfl, _, rfl, by decide +kernel⟩

theorem witness_EveryStepKeepsStationControl :
    busy.ControlConsistent ∧ busy.EmptyOutOfService ∧ busy.ValidatedInService := by
  unfold Station.ControlConsistent Station.EmptyOutOfService Station.ValidatedInService StationControl.settlingSomewhere
  decide +kernel

theorem witness_EveryStepKeepsTheAgenda : busy.AgendaConsistent := by
  unfold Station.AgendaConsistent
  decide +kernel

theorem witness_EveryStepKeepsTheTrackTable :
    busy.TrackConsistent ∧ { item 2 31 950 with verdict := .reject, source := some 7 } ∈ busy.track ∧
      ∃ t, step { busy with pending := [.startBit] } = .next t ∧
        { item 2 31 950 with verdict := .reject, source := some 7 } ∈ t.track := by
  unfold Station.TrackConsistent
  exact ⟨by decide +kernel, by decide +kernel, _, rfl, by decide +kernel⟩

theorem witness_EveryStepKeepsWindowsDisjoint : busy.ClaimsConsistent := by
  unfold Station.ClaimsConsistent
  refine List.Pairwise.cons ?_ (List.Pairwise.cons (fun _ h => (nomatch h)) List.Pairwise.nil)
  intro d h
  simp only [List.mem_singleton] at h
  subst h
  exact ⟨by decide, fun h => absurd h (by decide)⟩

theorem witness_EveryStepKeeps_a_step_exists : ∃ t, step busy = .next t := ⟨_, rfl⟩

end Sys2Proof.Tests
end

/-! PROOF. A step by its parts: what each command does to the station, and what has to be shown of an invariant that
every step keeps. -/

namespace Sys2Proof.Machine

/-! ## A command on the station -/

/-- What a command does to the station, apart from the queue of waiting commands. -/
def effectOf : Instr → Station → Station
  | .encoderCount levels => Station.encoderChange levels
  | .startBit => Station.seeStartBit
  | .frameStart => Station.startFrame
  | .lostArbitration => Station.loseArbitration
  | .bitClash => Station.findBitClash
  | .frameFault levels => Station.judgeLevels levels
  | .frameRejected => Station.frameRejected
  | .failedAttempt => Station.attemptFails
  | .frameTake frame => Station.takeFrame frame
  | .markTimerExpiry => Station.markExpires
  | .joinTimeout => Station.joinExpires
  | .sensorInputChange sensor level => Station.sensorRead sensor level
  | .auxInputChange input level => Station.auxRead input level
  | .delayExpiry channel => Station.delayExpires channel
  | .highWidthExpiry channel => Station.highExpires channel
  | .lowWidthExpiry channel => Station.lowExpires channel
  | .holdCapExpiry channel => Station.holdCapExpires channel
  | .start => Station.startCommand
  | .stop => Station.stopCommand
  | .resume => Station.resumeCommand
  | .postSight => Station.postSightCommand
  | .postVerdict => Station.postVerdictCommand
  | .retireItem => Station.retireItemCommand
  | .dropItem => Station.dropItemCommand
  | .forceFire => Station.forceFireCommand
  | .commitForm => Station.commitFormCommand
  | .popEvent => Station.popEventCommand
  | .unassignedCommand code => Station.commandWrite code
  | .tableSel word => Station.writeTableSel word
  | .registerWrite number word => Station.registerWrite number word
  | .configRead item => Station.configRead item
  | .configWrite item word => Station.configWrite item word
  | .voidTransaction type number word => Station.transaction type number word
  | .deviceReset levels => Station.deviceReset levels
  | .deviceResetWrite word => Station.writeDeviceReset word
  | .idleGap => Station.seeIdleGap

theorem exec_eq_effectOf (c : Instr) (s : State) :
    exec c s = .next { s with toStation := effectOf c s.toStation } := by
  cases c <;> rfl

/-! ## Invariants, block by block -/

/-- What has to be shown of an invariant of the station: each operation of the blocks keeps it, where it is used. A
refused command is not among them, since it reaches the port alone. -/
structure KeptByBlocks (Inv : Station → Prop) : Prop where
  ties : ∀ s k, Inv s → Inv { s with ties := k }
  port : ∀ s p, Inv s → Inv { s with port := p }
  events : ∀ s ev, Inv s → Inv { s with events := ev }
  resetAt : ∀ levels k, Inv (Station.resetAt levels k)
  tick : ∀ s, Inv s → Inv s.tick
  encoderChange : ∀ s new, Inv s → Inv (s.encoderChange new)
  seeStartBit : ∀ s, Inv s → Inv s.seeStartBit
  seeIdleGap : ∀ s, Inv s → Inv s.seeIdleGap
  startFrame : ∀ s, Inv s → Inv s.startFrame
  loseArbitration : ∀ s, Inv s → Inv s.loseArbitration
  findBitClash : ∀ s, Inv s → Inv s.findBitClash
  attemptFails : ∀ s, Inv s → Inv s.attemptFails
  judgeLevels : ∀ s levels, Inv s → Inv (s.judgeLevels levels)
  frameRejected : ∀ s, Inv s → Inv s.frameRejected
  takeFrame : ∀ s f, Inv s → Inv (s.takeFrame f)
  markExpires : ∀ s, Inv s → Inv s.markExpires
  joinExpires : ∀ s, Inv s → Inv s.joinExpires
  sensorRead : ∀ s n level, Inv s → Inv (s.sensorRead n level)
  auxRead : ∀ s n level, Inv s → Inv (s.auxRead n level)
  delayExpires : ∀ s c, Inv s → Inv (s.delayExpires c)
  highExpires : ∀ s c, Inv s → Inv (s.highExpires c)
  lowExpires : ∀ s c, Inv s → Inv (s.lowExpires c)
  holdCapExpires : ∀ s c, Inv s → Inv (s.holdCapExpires c)
  accept : ∀ s, s.ctl.state = .halted → s.validate = none → Inv s → Inv s.accept
  stop : ∀ s, Inv s → Inv (s.clearForStop.changeState .halted .stop)
  resume : ∀ s, s.ctl.state = .mute → Inv s → Inv ({ s with link.goodRun := 0 }.returnToResume .resume)
  makeSighting : ∀ s pos lane cls, s.ctl.state.inService = true → Inv s → Inv (s.makeSighting pos lane cls)
  enqueueHost : ∀ s p, s.ctl.state.inService = true → Inv s → Inv (s.enqueue p .host)
  removeItem : ∀ s tag, (s.findItem tag).isSome = true → Inv s → Inv (s.removeItem tag)
  fireRequest : ∀ s c sl src item, Inv s → Inv (s.fireRequest c sl src item)
  setCommit : ∀ s c sl, Inv s → Inv (s.setCommit c sl)
  takeItem : ∀ s i x t, (i.itemClass = .locked → s.ctl.state = .halted) → s.takeItem i x = some t → Inv s → Inv t

namespace KeptByBlocks

theorem whenInService {Inv : Station → Prop} {s : Station} {body : Station → Answer}
    (hb : ∀ t, t.ctl.state.inService = true → Inv t → Inv (body t).station) (hs : Inv s) :
    Inv (s.whenInService body).station := by
  cases hin : s.ctl.state.inService with
  | true => rw [Station.whenInService_of_inService hin]; exact hb s hin hs
  | false => rw [Station.whenInService_of_not hin]; exact hs

section
variable {Inv : Station → Prop} (h : KeptByBlocks Inv) {s : Station}
include h

/-! ### Commands of the controller -/

theorem runCommand {body : Station → Answer} (hb : ∀ t, Inv t → Inv (body t).station) (code : BitVec 8) (hs : Inv s) :
    Inv (s.runCommand code body) :=
  h.port _ _ (hb _ (h.port _ _ hs))

theorem start (hs : Inv s) : Inv s.start.station := by
  unfold Station.start
  split
  · exact hs
  · next hst =>
    split
    · exact hs
    · next hv => exact h.accept s (not_not.mp hst) hv hs

theorem stopAnswer (hs : Inv s) : Inv (Station.stop s).station := by
  unfold Station.stop
  split
  · exact hs
  · exact h.stop s hs

theorem resumeAnswer (hs : Inv s) : Inv (Station.resume s).station := by
  unfold Station.resume
  split
  · exact hs
  · next hst => exact h.resume s (not_not.mp hst) hs

theorem postSightArgs (hin : s.ctl.state.inService = true) (hs : Inv s) : Inv s.postSightArgs.station := by
  unfold Station.postSightArgs
  split
  · exact h.makeSighting s _ _ _ hin hs
  all_goals exact hs

theorem postVerdictArgs (hin : s.ctl.state.inService = true) (hs : Inv s) : Inv s.postVerdictArgs.station := by
  unfold Station.postVerdictArgs
  split
  · exact h.enqueueHost s _ hin hs
  all_goals exact hs

theorem retireItemArgs (hin : s.ctl.state.inService = true) (hs : Inv s) : Inv s.retireItemArgs.station := by
  unfold Station.retireItemArgs
  split
  · exact h.enqueueHost s _ hin hs
  · exact hs

theorem dropItem (hs : Inv s) : Inv s.dropItem.station := by
  unfold Station.dropItem
  split
  · exact hs
  · split
    · next hf => exact h.removeItem s _ hf hs
    · exact hs

theorem forceFire (hs : Inv s) : Inv s.forceFire.station := by
  unfold Station.forceFire
  split
  · exact h.fireRequest s _ _ _ _ hs
  all_goals exact hs

theorem commitForm (hs : Inv s) : Inv s.commitForm.station := by
  unfold Station.commitForm
  split
  · exact h.setCommit s _ _ hs
  all_goals exact hs

theorem popEvent (hs : Inv s) : Inv s.popEvent.station := by
  unfold Station.popEvent
  split
  · exact h.port _ _ hs
  · next es _ => exact h.port { s with events := es } _ (h.events s es hs)

/-- Every COMMAND write runs one of the ten commands or is refused (R180). -/
theorem commandWrite (code : BitVec 8) (hs : Inv s) : Inv (s.commandWrite code) := by
  unfold Station.commandWrite
  split
  · exact h.runCommand (fun _ => h.start) _ hs
  · exact h.runCommand (fun _ => h.stopAnswer) _ hs
  · exact h.runCommand (fun _ => h.resumeAnswer) _ hs
  · exact h.runCommand (fun _ => whenInService fun _ => h.postSightArgs) _ hs
  · exact h.runCommand (fun _ => whenInService fun _ => h.postVerdictArgs) _ hs
  · exact h.runCommand (fun _ => whenInService fun _ => h.retireItemArgs) _ hs
  · exact h.runCommand (fun _ => h.dropItem) _ hs
  · exact h.runCommand (fun _ => h.forceFire) _ hs
  · exact h.runCommand (fun _ => h.commitForm) _ hs
  · exact h.runCommand (fun _ => h.popEvent) _ hs
  · exact h.runCommand (fun _ ht => ht) _ hs

/-! ### Registers and configuration -/

theorem writeTableSel (x : Word) (hs : Inv s) : Inv (s.writeTableSel x) := by
  unfold Station.writeTableSel
  split
  · exact h.port _ _ hs
  · exact h.port _ _ (h.port _ _ hs)

theorem writeDeviceReset (x : Word) (hs : Inv s) : Inv (s.writeDeviceReset x) := by
  unfold Station.writeDeviceReset
  split
  · exact h.resetAt _ _
  · exact h.port _ _ hs

/-- COMMAND, TABLE_SEL and DEVICE_RESET alone reach past the port (R178). -/
theorem registerWrite (number : BitVec 8) (x : Word) (hs : Inv s) : Inv (s.registerWrite number x) := by
  unfold Station.registerWrite
  split
  case h_4 => exact h.commandWrite _ hs
  case h_10 => exact h.writeTableSel _ hs
  case h_16 => exact h.writeDeviceReset _ hs
  all_goals exact h.port s _ hs

theorem writeItem {i : ConfigItem} (hi : i.itemClass = .locked → s.ctl.state = .halted) (x : Word) (hs : Inv s) :
    Inv (s.writeItem i x) := by
  unfold Station.writeItem
  split
  · exact h.port _ _ hs
  · next ht => exact h.port _ _ (h.takeItem s i x _ hi ht hs)

theorem configWrite (number : BitVec 8) (x : Word) (hs : Inv s) : Inv (s.configWrite number x) := by
  unfold Station.configWrite
  split
  · exact h.port _ _ hs
  · exact h.port _ _ hs
  · split
    · next hst => exact h.writeItem (fun _ => hst) x hs
    · exact h.port _ _ hs
  · next hc => exact h.writeItem (fun hl => by rw [hc] at hl; cases hl) x hs

theorem transaction (type number : BitVec 8) (x : Word) (hs : Inv s) : Inv (s.transaction type number x) := by
  unfold Station.transaction
  split
  case h_2 => exact h.registerWrite _ _ hs
  case h_4 => exact h.configWrite _ _ hs
  all_goals exact h.port s _ hs

/-! ### Every command, and every step -/

theorem command (c : Instr) (hs : Inv s) : Inv (effectOf c s) := by
  cases c with
  | encoderCount levels => exact h.encoderChange s levels hs
  | startBit => exact h.seeStartBit s hs
  | frameStart => exact h.startFrame s hs
  | lostArbitration => exact h.loseArbitration s hs
  | bitClash => exact h.findBitClash s hs
  | frameFault levels => exact h.judgeLevels s levels hs
  | frameRejected => exact h.frameRejected s hs
  | failedAttempt => exact h.attemptFails s hs
  | frameTake frame => exact h.takeFrame s frame hs
  | markTimerExpiry => exact h.markExpires s hs
  | joinTimeout => exact h.joinExpires s hs
  | sensorInputChange sensor level => exact h.sensorRead s sensor level hs
  | auxInputChange input level => exact h.auxRead s input level hs
  | delayExpiry channel => exact h.delayExpires s channel hs
  | highWidthExpiry channel => exact h.highExpires s channel hs
  | lowWidthExpiry channel => exact h.lowExpires s channel hs
  | holdCapExpiry channel => exact h.holdCapExpires s channel hs
  | start => exact h.commandWrite 1 hs
  | stop => exact h.commandWrite 2 hs
  | resume => exact h.commandWrite 3 hs
  | postSight => exact h.commandWrite 4 hs
  | postVerdict => exact h.commandWrite 5 hs
  | retireItem => exact h.commandWrite 6 hs
  | dropItem => exact h.commandWrite 7 hs
  | forceFire => exact h.commandWrite 8 hs
  | commitForm => exact h.commandWrite 9 hs
  | popEvent => exact h.commandWrite 10 hs
  | unassignedCommand code => exact h.commandWrite code hs
  | tableSel word => exact h.writeTableSel word hs
  | registerWrite number word => exact h.registerWrite number word hs
  | configRead item => exact h.port _ _ hs
  | configWrite item word => exact h.configWrite item word hs
  | voidTransaction type number word => exact h.transaction type number word hs
  | deviceReset levels => exact h.resetAt levels _
  | deviceResetWrite word => exact h.writeDeviceReset word hs
  | idleGap => exact h.seeIdleGap s hs

/-- An invariant that the blocks keep is kept by every step: by the front command, and by a period of the timebase on an
empty queue. -/
theorem keptByEveryStep : KeptByEveryStep Inv := by
  intro s t hs hstep
  unfold step at hstep
  split at hstep
  · obtain ⟨k, hk⟩ := s.toStation.tick.noteChoice_frame s.tick.dueCommands
    cases hstep
    show Inv (s.tick.noteChoice s.tick.dueCommands)
    rw [hk]
    exact h.ties _ _ (h.tick _ hs)
  · rw [exec_eq_effectOf] at hstep
    cases hstep
    exact h.command _ hs

end

end KeptByBlocks

end Sys2Proof.Machine

/-! PROOF. What the sensor inputs, the expiries of the channels and the configuration writes can change: one equation an
operation. -/

namespace Sys2Proof.Machine

/-! ## Channels -/

theorem Station.auxRead_frame (s : Station) (n : Fin 4) (level : Bool) :
    ∃ a ch ev k, s.auxRead n level = { s with pins.aux := a, channels := ch, events := ev, ties := k } := by
  obtain ⟨ch, ev, k, h⟩ := Station.conditionsChanged_frame s { s with pins.aux := s.pins.aux.set n.val level n.isLt }
  exact ⟨_, ch, ev, k, h⟩

theorem Station.delayExpires_frame (s : Station) (c : Fin 4) : ∃ ch, s.delayExpires c = { s with channels := ch } := by
  unfold Station.delayExpires
  split
  · exact ⟨s.channels, rfl⟩
  · split
    · exact ⟨_, rfl⟩
    · exact ⟨s.channels, rfl⟩

theorem Station.lowExpires_frame (s : Station) (c : Fin 4) : ∃ ch, s.lowExpires c = { s with channels := ch } := by
  unfold Station.lowExpires
  split
  · exact ⟨s.channels, rfl⟩
  · split
    · exact ⟨_, rfl⟩
    · exact ⟨s.channels, rfl⟩

theorem Station.endOfHigh_frame (s : Station) (c : Fin 4) (r : Run) :
    ∃ ch ev, s.endOfHigh c r = { s with channels := ch, events := ev } := by
  unfold Station.endOfHigh
  split
  · exact s.endSequence_frame c r
  · split
    · exact s.endSequence_frame c r
    · exact ⟨_, s.events, rfl⟩
  · split
    · exact ⟨_, s.events, rfl⟩
    · exact s.endSequence_frame c r

theorem Station.highExpires_frame (s : Station) (c : Fin 4) :
    ∃ ch ev, s.highExpires c = { s with channels := ch, events := ev } := by
  unfold Station.highExpires
  split
  · exact ⟨s.channels, s.events, rfl⟩
  · split
    · exact s.endOfHigh_frame c _
    · exact ⟨s.channels, s.events, rfl⟩

theorem Station.holdCapExpires_frame (s : Station) (c : Fin 4) :
    ∃ ch ev, s.holdCapExpires c = { s with channels := ch, events := ev } := by
  unfold Station.holdCapExpires
  split
  · exact ⟨s.channels, s.events, rfl⟩
  · next r _ =>
    split
    · split
      · obtain ⟨ch, ev, h⟩ := Station.endSequence_frame
          (s.addRecord { kind := .holdCap, item := r.item, channel := some c, value := some (r.form.cap.toNat : Int) }) c r
        exact ⟨ch, ev, h⟩
      · exact s.endSequence_frame c r
    · exact ⟨s.channels, s.events, rfl⟩

/-! ## Sensor inputs -/

theorem Station.makeSighting_frame (s : Station) (pos : Pos) (lane : BitVec 2) (cls : BitVec 4) :
    ∃ q ev, s.makeSighting pos lane cls = { s with sense.seq := s.sense.seq + 1, link.txq := q, events := ev } :=
  Station.enqueue_frame { s with sense.seq := s.sense.seq + 1 } _ _

theorem Station.takeEdge_frame (s : Station) (n : Fin 4) :
    ∃ se q ev, s.takeEdge n = { s with sense := se, link.txq := q, events := ev } := by
  unfold Station.takeEdge
  split
  · exact ⟨s.sense, s.link.txq, s.events, rfl⟩
  · obtain ⟨q, ev, h⟩ := Station.makeSighting_frame
      (s.setSensor n { s.sensor n with last := some s.pos.count }) s.pos.count
      (s.settings.sensors.get n).lane (s.settings.sensors.get n).cls
    exact ⟨_, q, ev, h⟩

theorem Station.sensorEdge_frame (s : Station) (n : Fin 4) :
    ∃ se q ev, s.sensorEdge n = { s with sense := se, link.txq := q, events := ev } := by
  unfold Station.sensorEdge
  split
  case h_6 => exact ⟨s.sense, s.link.txq, _, rfl⟩
  case h_1 | h_2 => exact ⟨s.sense, s.link.txq, s.events, rfl⟩
  all_goals exact s.takeEdge_frame n

theorem Station.sensorRead_frame (s : Station) (n : Fin 4) (level : Bool) :
    ∃ se q ev, s.sensorRead n level = { s with sense := se, link.txq := q, events := ev } := by
  unfold Station.sensorRead
  split
  · exact ⟨s.sense, s.link.txq, s.events, rfl⟩
  · split
    · obtain ⟨se, q, ev, h⟩ := Station.sensorEdge_frame (s.setSensor n { s.sensor n with level := level }) n
      exact ⟨se, q, ev, h⟩
    · exact ⟨_, s.link.txq, s.events, rfl⟩

/-! ## Configuration writes -/

/-- What an item that takes a word can change. Of the settings, an item that is not LOCKED reaches ATTN_THRESHOLD
alone. -/
structure ItemFrame (locked : Prop) (s t : Station) : Prop where
  eq : ∃ rf sb ch ev k, t =
    { s with pos.ref := rf, pos.sub := sb, settings := t.settings, channels := ch, events := ev, ties := k }
  settings : ¬ locked → ∃ v, t.settings = { s.settings with attnThreshold := v }

theorem ItemFrame.withSettings {p : Prop} (hp : p) (s : Station) (c : Settings) : ItemFrame p s (s.withSettings c) :=
  ⟨⟨s.pos.ref, s.pos.sub, s.channels, s.events, s.ties, rfl⟩, fun h => absurd hp h⟩

theorem ItemFrame.setChan {p : Prop} (s : Station) (c : Fin 4) (ch : Channel) : ItemFrame p s (s.setChan c ch) :=
  ⟨⟨s.pos.ref, s.pos.sub, _, s.events, s.ties, rfl⟩, fun _ => ⟨s.settings.attnThreshold, rfl⟩⟩

theorem Station.takeItem_frame {s t : Station} {i : ConfigItem} {x : Word} (ht : s.takeItem i x = some t) :
    ItemFrame (i.itemClass = .locked) s t := by
  cases i with
  | identity => cases ht
  | void => cases ht
  | attnThreshold =>
    obtain ⟨v, -, rfl⟩ := Option.map_eq_some_iff.mp ht
    exact ⟨⟨s.pos.ref, s.pos.sub, s.channels, s.events, s.ties, rfl⟩, fun _ => ⟨v, rfl⟩⟩
  | encoderMode =>
    obtain ⟨v, -, rfl⟩ := Option.map_eq_some_iff.mp ht
    exact ⟨⟨s.pins.enc, s.pos.sub, s.channels, s.events, s.ties, rfl⟩, fun h => absurd rfl h⟩
  | prescale =>
    obtain ⟨v, -, rfl⟩ := Option.map_eq_some_iff.mp ht
    exact ⟨⟨s.pos.ref, 0, s.channels, s.events, s.ties, rfl⟩, fun h => absurd rfl h⟩
  | sensorMode n => cases ht; exact .withSettings rfl s _
  | templateOrigins n => cases ht; exact .withSettings rfl s _
  | channelSettings c =>
    obtain ⟨v, -, rfl⟩ := Option.map_eq_some_iff.mp ht
    obtain ⟨ch, ev, k, h⟩ := Station.conditionsChanged_frame s
      { s with settings.channels := s.settings.channels.set c.val v c.isLt }
    refine ⟨⟨s.pos.ref, s.pos.sub, ch, ev, k, ?_⟩, fun h => absurd rfl h⟩
    rw [Station.setChannelSettings, h]
  | formShape c sl =>
    obtain ⟨v, -, rfl⟩ := Option.map_eq_some_iff.mp ht
    exact .setChan s c _
  | formWidths c sl =>
    obtain ⟨v, -, rfl⟩ := Option.map_eq_some_iff.mp ht
    exact .setChan s c _
  | formCap c sl =>
    obtain ⟨v, -, rfl⟩ := Option.map_eq_some_iff.mp ht
    exact .setChan s c _
  | _ =>
    obtain ⟨v, -, rfl⟩ := Option.map_eq_some_iff.mp ht
    exact .withSettings rfl s _

end Sys2Proof.Machine

/-! PROOF. The agenda's order under removals, insertions and changes of the position, and that every step keeps it. -/

namespace Sys2Proof.Machine

/-! ## Positions -/

theorem dist_eq (a b : Pos) : dist a b = (16777216 - b.toNat + a.toNat) % 16777216 := by
  simp [dist, BitVec.toNat_sub]

theorem ahead_iff (a b : Pos) : ahead a b = true ↔ 1 ≤ dist a b ∧ dist a b ≤ 8388607 := by
  simp [ahead]

@[simp] theorem dist_self (a : Pos) : dist a a = 0 := by simp [dist]

theorem dist_eq_zero_iff (a b : Pos) : dist a b = 0 ↔ a = b := by
  constructor
  · intro h
    have ha := a.isLt
    have hb := b.isLt
    rw [dist_eq] at h
    exact BitVec.eq_of_toNat_eq (by omega)
  · rintro rfl
    exact dist_self a

/-- Positions that lie within half the belt ahead of two positions stand in one order seen from either. -/
theorem dist_le_of_moved {a b p q : Pos} (hab : dist a p ≤ dist b p) (hb : dist b p ≤ 8388607)
    (ha' : dist a q ≤ 8388607) (hb' : dist b q ≤ 8388607) : dist a q ≤ dist b q := by
  have := a.isLt
  have := b.isLt
  have := p.isLt
  have := q.isLt
  rw [dist_eq] at *
  rw [dist_eq] at *
  omega

/-- What is ahead before a forward step is not more than half the belt ahead after it. -/
theorem dist_succ_le_of_ahead {a p : Pos} (h : ahead a p = true) : dist a (p + 1) ≤ 8388607 := by
  have ha := a.isLt
  have hp := p.isLt
  rw [ahead_iff, dist_eq] at h
  rw [dist_eq, BitVec.toNat_add, show (1 : Pos).toNat = 1 from rfl]
  omega

/-! ## Entries in order -/

/-- Entries that lie `near` the position `p`, name items of `items`, and stand in the order of their distances from `p`
and, at one fire position, of their templates (R102). -/
def EntriesInOrder (near : Pos → Pos → Prop) (p : Pos) (items : List Item) (es : List Entry) : Prop :=
  (∀ e ∈ es, near e.fire p ∧ ∃ i ∈ items, i.tag = e.item) ∧
    es.Pairwise (fun e f => dist e.fire p ≤ dist f.fire p ∧ (e.fire = f.fire → e.template ≤ f.template))

/-- The fire positions ahead of the position. -/
def Ahead (a p : Pos) : Prop := ahead a p = true

/-- The fire positions ahead of the position or at it. -/
def NotBehind (a p : Pos) : Prop := dist a p ≤ 8388607

theorem Station.agendaConsistent_iff (s : Station) :
    s.AgendaConsistent ↔ EntriesInOrder Ahead s.pos.count s.track s.agenda ∧
      s.pos.matchReg = s.agenda.head?.map Entry.fire :=
  and_assoc.symm

theorem Ahead.notBehind {a p : Pos} (h : Ahead a p) : NotBehind a p := ((ahead_iff a p).mp h).2

theorem NotBehind.ahead {a p : Pos} (h : NotBehind a p) (hne : a ≠ p) : Ahead a p :=
  (ahead_iff a p).mpr ⟨Nat.one_le_iff_ne_zero.mpr fun h0 => hne ((dist_eq_zero_iff a p).mp h0), h⟩

theorem mem_insertEntry {p : Pos} {e g : Entry} {es : List Entry} : g ∈ insertEntry p e es ↔ g = e ∨ g ∈ es := by
  induction es with
  | nil => simp [insertEntry]
  | cons f fs ih =>
    unfold insertEntry
    split
    · simp
    · simp [ih, or_left_comm]

namespace EntriesInOrder

variable {near near' : Pos → Pos → Prop} {p q : Pos} {items items' : List Item} {es : List Entry}

theorem nil : EntriesInOrder near p items [] := ⟨fun _ h => (nomatch h), .nil⟩

theorem weaken (h : EntriesInOrder near p items es) (hn : ∀ e ∈ es, near e.fire p → near' e.fire p) :
    EntriesInOrder near' p items es :=
  ⟨fun e he => ⟨hn e he (h.1 e he).1, (h.1 e he).2⟩, h.2⟩

/-- Fewer entries, over a table that still has the items that they name. -/
theorem sublist (h : EntriesInOrder near p items es) {fs : List Entry} (hsub : fs.Sublist es)
    (hi : ∀ e ∈ fs, ∀ i ∈ items, i.tag = e.item → ∃ j ∈ items', j.tag = e.item) :
    EntriesInOrder near p items' fs := by
  refine ⟨fun e he => ?_, h.2.sublist hsub⟩
  obtain ⟨hnear, i, hmem, htag⟩ := h.1 e (hsub.mem he)
  exact ⟨hnear, hi e he i hmem htag⟩

/-- Entries that are not behind keep their order when the position moves, as long as they are not behind then. -/
theorem moved (h : EntriesInOrder NotBehind p items es) {fs : List Entry} (hsub : fs.Sublist es)
    (hq : ∀ e ∈ fs, near e.fire q) (hn : ∀ a, near a q → NotBehind a q) : EntriesInOrder near q items fs := by
  refine ⟨fun e he => ⟨hq e he, (h.1 e (hsub.mem he)).2⟩, ?_⟩
  refine (h.2.sublist hsub).imp_of_mem fun {e f} he hf hef => ⟨?_, hef.2⟩
  exact dist_le_of_moved hef.1 (h.1 f (hsub.mem hf)).1 (hn _ (hq e he)) (hn _ (hq f hf))

/-- A new entry takes its place. -/
theorem insert (h : EntriesInOrder near p items es) {e : Entry} (hnear : near e.fire p)
    (hitem : ∃ i ∈ items, i.tag = e.item) : EntriesInOrder near p items (insertEntry p e es) := by
  induction es with
  | nil => exact ⟨by simpa [insertEntry] using ⟨hnear, hitem⟩, List.pairwise_singleton _ _⟩
  | cons f fs ih =>
    obtain ⟨hall, hpair⟩ := h
    obtain ⟨hf, hfs⟩ := List.pairwise_cons.mp hpair
    unfold insertEntry
    split
    · next hb =>
      simp only [Entry.standsBefore, Bool.or_eq_true, Bool.and_eq_true, decide_eq_true_eq, beq_iff_eq] at hb
      refine ⟨?_, List.pairwise_cons.mpr ⟨?_, hpair⟩⟩
      · rintro g (_ | ⟨_, hg⟩)
        · exact ⟨hnear, hitem⟩
        · exact hall g hg
      · have hef : dist e.fire p ≤ dist f.fire p := by
          rcases hb with hlt | ⟨heq, _⟩
          · exact hlt.le
          · rw [heq]
        rintro g (_ | ⟨_, hg⟩)
        · refine ⟨hef, fun heq => ?_⟩
          rcases hb with hlt | ⟨_, hlt⟩
          · exact absurd (heq ▸ hlt) (lt_irrefl _)
          · exact hlt.le
        · obtain ⟨hfg, htpl⟩ := hf g hg
          refine ⟨hef.trans hfg, fun heq => ?_⟩
          rcases hb with hlt | ⟨hefeq, hlt⟩
          · exact absurd (heq ▸ hlt.trans_le hfg) (lt_irrefl _)
          · exact hlt.le.trans (htpl (hefeq ▸ heq))
    · next hb =>
      simp only [Entry.standsBefore, Bool.or_eq_true, Bool.and_eq_true, decide_eq_true_eq, beq_iff_eq, not_or,
        not_lt, not_and] at hb
      have hrest := ih ⟨fun g hg => hall g (.tail _ hg), hfs⟩
      refine ⟨?_, List.pairwise_cons.mpr ⟨?_, hrest.2⟩⟩
      · rintro g (_ | ⟨_, hg⟩)
        · exact hall f (.head _)
        · exact hrest.1 g hg
      · intro g hg
        rcases mem_insertEntry.mp hg with rfl | hg
        · exact ⟨hb.1, fun heq => hb.2 heq.symm⟩
        · exact hf g hg

end EntriesInOrder

/-! ## A claim state that changes -/

theorem mem_settleFirst {seq : Seq8} {c : ClaimState} {es : List Entry} {g : Entry} (hg : g ∈ settleFirst seq c es) :
    ∃ e ∈ es, g.fire = e.fire ∧ g.template = e.template ∧ g.item = e.item := by
  induction es with
  | nil => cases hg
  | cons e es ih =>
    unfold settleFirst at hg
    split at hg
    · rcases hg with _ | ⟨_, hg⟩
      · exact ⟨e, .head _, rfl, rfl, rfl⟩
      · exact ⟨g, .tail _ hg, rfl, rfl, rfl⟩
    · rcases hg with _ | ⟨_, hg⟩
      · exact ⟨g, .head _, rfl, rfl, rfl⟩
      · obtain ⟨e', he', h⟩ := ih hg
        exact ⟨e', .tail _ he', h⟩

theorem settleFirst_head_fire (seq : Seq8) (c : ClaimState) (es : List Entry) :
    (settleFirst seq c es).head?.map Entry.fire = es.head?.map Entry.fire := by
  cases es with
  | nil => rfl
  | cons e es => unfold settleFirst; split <;> rfl

theorem EntriesInOrder.settleFirst {near : Pos → Pos → Prop} {p : Pos} {items : List Item} {es : List Entry}
    (h : EntriesInOrder near p items es) (seq : Seq8) (c : ClaimState) :
    EntriesInOrder near p items (settleFirst seq c es) := by
  refine ⟨fun g hg => ?_, ?_⟩
  · obtain ⟨e, he, hfire, _, hitem⟩ := mem_settleFirst hg
    rw [hfire, hitem]
    exact h.1 e he
  · obtain ⟨-, hpair⟩ := h
    induction es with
    | nil => exact .nil
    | cons e es ih =>
      obtain ⟨he, hes⟩ := List.pairwise_cons.mp hpair
      unfold Machine.settleFirst
      split
      · exact List.pairwise_cons.mpr ⟨he, hes⟩
      · refine List.pairwise_cons.mpr ⟨fun g hg => ?_, ih hes⟩
        obtain ⟨f, hf, hfire, htpl, _⟩ := mem_settleFirst hg
        rw [hfire, htpl]
        exact he f hf

/-! ## Items -/

@[simp] theorem Item.merge_tag (i : Item) (v : Verdict) (o : Station5) :
    (i.merge v o).tag = i.tag := by
  unfold Item.merge
  split <;> rfl

theorem mem_placeItem {t : Pos} {i j : Item} {items : List Item} : j ∈ placeItem t i items ↔ j = i ∨ j ∈ items := by
  induction items with
  | nil => simp [placeItem]
  | cons k ks ih =>
    unfold placeItem
    split
    · simp
    · simp [ih, or_left_comm]

/-! ## The agenda of a station -/

/-- The agenda is in order, each entry `near` the position, and stands on the match register. -/
def Station.AgendaHolds (near : Pos → Pos → Prop) (s : Station) : Prop :=
  EntriesInOrder near s.pos.count s.track s.agenda ∧ s.pos.matchReg = s.agenda.head?.map Entry.fire

namespace Station

variable {near : Pos → Pos → Prop} {s : Station}

theorem agendaConsistent_of_empty (ha : s.agenda = []) (hm : s.pos.matchReg = none) : s.AgendaConsistent := by
  rw [agendaConsistent_iff, ha, hm]
  exact ⟨.nil, rfl⟩

theorem AgendaHolds.removeItem (h : s.AgendaHolds near) (tag : Tag) : (s.removeItem tag).AgendaHolds near := by
  obtain ⟨q, ev, heq⟩ := s.removeItem_frame tag
  rw [heq]
  refine ⟨h.1.sublist List.filter_sublist fun e he i hi htag => ⟨i, ?_, htag⟩, rfl⟩
  have hne : e.item ≠ tag := by simpa using (List.mem_filter.mp he).2
  exact (List.mem_eraseP_of_neg (by simpa [htag] using hne)).mpr hi

theorem AgendaHolds.removeOldest (n : Nat) (h : s.AgendaHolds near) : (s.removeOldest n).AgendaHolds near := by
  induction n generalizing s with
  | zero => exact h
  | succ n ih =>
    unfold Station.removeOldest
    split
    · exact h
    · split
      · exact ih (h.removeItem _)
      · exact h

theorem AgendaHolds.settleStep (h : s.AgendaHolds near) : s.settleStep.AgendaHolds near := by
  obtain ⟨st, re, ss, ev, heq, _⟩ := s.settleStep_frame
  rw [heq]
  exact h

/-- A match takes everything that is at the position, and what stays is ahead of it. -/
theorem AgendaHolds.takeMatch (h : s.AgendaHolds NotBehind) : s.takeMatch.AgendaConsistent := by
  obtain ⟨q, ch, ev, heq⟩ := s.takeMatch_frame
  rw [heq, agendaConsistent_iff]
  refine ⟨(h.1.sublist List.filter_sublist fun _ _ i hi htag => ⟨i, hi, htag⟩).weaken fun e he hn => ?_, rfl⟩
  exact hn.ahead (by simpa using (List.mem_filter.mp he).2)

/-- Where the match register does not hold the position, no entry is at it: the head is the nearest. -/
theorem AgendaHolds.of_not_atMatch (h : s.AgendaHolds NotBehind) (hm : s.atMatch = false) : s.AgendaConsistent := by
  rw [agendaConsistent_iff]
  obtain ⟨hord, hreg⟩ := h
  refine ⟨hord.weaken fun e he hn => hn.ahead fun hfire => ?_, hreg⟩
  cases hag : s.agenda with
  | nil => rw [hag] at he; cases he
  | cons f fs =>
    have hf : f.fire ≠ s.pos.count := by simpa [atMatch, hreg, hag] using hm
    rw [hag] at he
    rcases he with _ | ⟨_, he⟩
    · exact hf hfire
    · have hle := (List.rel_of_pairwise_cons (hag ▸ hord.2) he).1
      rw [hfire, dist_self, Nat.le_zero, dist_eq_zero_iff] at hle
      exact hf hle

theorem AgendaHolds.matchStep (h : s.AgendaHolds NotBehind) : s.matchStep.AgendaConsistent := by
  unfold Station.matchStep
  split
  · exact h.takeMatch
  · next hm => exact h.of_not_atMatch (by simpa using hm)

theorem AgendaConsistent.notBehind (h : s.AgendaConsistent) : s.AgendaHolds NotBehind := by
  rw [agendaConsistent_iff] at h
  exact ⟨h.1.weaken fun _ _ ha => ha.notBehind, h.2⟩

/-! ## Steps and alignments -/

theorem AgendaConsistent.handle (h : s.AgendaConsistent) (r : StepReceiver) : (r.handle s).AgendaConsistent := by
  have h' := (agendaConsistent_iff s).mp h
  cases r with
  | track => exact (agendaConsistent_iff _).mpr (AgendaHolds.removeOldest _ h')
  | agenda => exact h.notBehind.matchStep
  | control => exact (agendaConsistent_iff _).mpr (AgendaHolds.settleStep h')

theorem AgendaHolds.handle (h : s.AgendaHolds NotBehind) (r : StepReceiver) : (r.handle s).AgendaHolds NotBehind := by
  cases r with
  | track => exact h.removeOldest _
  | agenda => exact h.matchStep.notBehind
  | control => exact h.settleStep

/-- Receivers in any order leave the agenda consistent when the agenda is one of them, or was consistent before. -/
theorem AgendaHolds.foldl_handle {rs : List StepReceiver} (h : s.AgendaHolds NotBehind)
    (hr : StepReceiver.agenda ∈ rs ∨ s.AgendaConsistent) : (rs.foldl (fun t r => r.handle t) s).AgendaConsistent := by
  induction rs generalizing s with
  | nil => exact hr.resolve_left List.not_mem_nil
  | cons r rs ih =>
    refine ih (h.handle r) ?_
    rcases hr with hr | hr
    · rcases hr with _ | ⟨_, hr⟩
      · exact .inr h.matchStep
      · exact .inl hr
    · exact .inr (hr.handle r)

theorem AgendaConsistent.forwardStep (h : s.AgendaConsistent) : s.forwardStep.AgendaConsistent := by
  have hdue : ({ s with pos.count := s.pos.count + 1 } : Station).AgendaHolds NotBehind := by
    have h' := (agendaConsistent_iff s).mp h
    exact ⟨h.notBehind.1.moved (.refl _) (fun e he => dist_succ_le_of_ahead (h'.1.1 e he).1) (fun _ hn => hn), h'.2⟩
  unfold Station.forwardStep Station.inTieOrder
  dsimp only
  obtain ⟨k, hk⟩ := Station.noteChoice_frame { s with pos.count := s.pos.count + 1 }
    ([StepReceiver.track, .agenda, .control].filter ({ s with pos.count := s.pos.count + 1 } : Station).concerns)
  rw [hk]
  refine AgendaHolds.foldl_handle hdue ?_
  rw [(Station.chosenOrder_perm _ _ _).mem_iff]
  cases hm : ({ s with pos.count := s.pos.count + 1 } : Station).atMatch with
  | true => exact .inl (List.mem_filter.mpr ⟨by simp, hm⟩)
  | false => exact .inr (AgendaHolds.of_not_atMatch hdue hm)

/-- Wherever the position goes, the sweep of the entries that are no longer ahead leaves the agenda consistent. -/
theorem AgendaConsistent.lateSweep_moved (h : s.AgendaConsistent) {t : Station} (htrack : t.track = s.track)
    (hag : t.agenda = s.agenda) : t.lateSweep.AgendaConsistent := by
  obtain ⟨q, ch, ev, heq⟩ := t.lateSweep_frame
  rw [heq, hag, agendaConsistent_iff]
  refine ⟨?_, rfl⟩
  show EntriesInOrder Ahead t.pos.count t.track _
  rw [htrack]
  exact h.notBehind.1.moved List.filter_sublist (fun e he => (List.mem_filter.mp he).2) fun _ ha => ha.notBehind

theorem AgendaConsistent.count (h : s.AgendaConsistent) (d : Direction) : (s.count d).AgendaConsistent := by
  unfold Station.count
  split
  · split
    · exact AgendaConsistent.forwardStep (s := { s with pos.dir := .forward, pos.sub := 0 }) h
    · exact h
  · split
    · exact h.lateSweep_moved rfl rfl
    · exact h

theorem AgendaConsistent.encoderChange (h : s.AgendaConsistent) (new : EncLevels) :
    (s.encoderChange new).AgendaConsistent := by
  unfold Station.encoderChange
  split
  · exact h
  · exact AgendaConsistent.count (s := s.acceptLevels new) h _

theorem AgendaConsistent.align (h : s.AgendaConsistent) (k : Pos) : (s.align k).AgendaConsistent :=
  h.lateSweep_moved rfl rfl

/-! ## Insertions -/

/-- The agenda is in order, whatever the match register holds, and the item that it is handed is in the table. -/
def TakesItem (i : Item) (s : Station) : Prop := EntriesInOrder Ahead s.pos.count s.track s.agenda ∧ i ∈ s.track

theorem TakesItem.insertFor {i : Item} (h : s.TakesItem i) (t : Fin 16) : (s.insertFor i t).TakesItem i := by
  unfold Station.insertFor
  split
  · exact h
  · split
    · obtain ⟨ch, ev, heq⟩ := s.handleLate_frame t i.tag (dist s.pos.count ((s.template t).firePosition i))
      rw [heq]
      exact h
    · next hahead =>
      split
      · exact h
      · obtain ⟨q, ev, k, heq⟩ := s.addEntry_frame t i ((s.template t).firePosition i)
        rw [heq]
        exact ⟨h.1.insert (by simpa [Ahead] using hahead) ⟨i, h.2, rfl⟩, h.2⟩

theorem TakesItem.loadMatch {i : Item} (h : s.TakesItem i) : s.loadMatch.AgendaConsistent :=
  (agendaConsistent_iff _).mpr ⟨h.1, rfl⟩

theorem TakesItem.insertItem {i : Item} (h : s.TakesItem i) : (s.insertItem i).AgendaConsistent := by
  have hfold : ((List.finRange 16).foldl (Station.insertFor i) s).TakesItem i :=
    foldl_induct (P := Station.TakesItem i) (fun t _ _ ht => TakesItem.insertFor ht t) h
  exact hfold.loadMatch

theorem AgendaConsistent.enterItem (h : s.AgendaConsistent) (t : Pos) (i : Item) :
    (s.enterItem t i).AgendaConsistent := by
  refine TakesItem.insertItem ⟨?_, mem_placeItem.mpr (.inl rfl)⟩
  exact ((agendaConsistent_iff s).mp h).1.sublist (.refl _) fun _ _ j hj htag => ⟨j, mem_placeItem.mpr (.inr hj), htag⟩

/-! ## Claims lost and held -/

theorem AgendaConsistent.settleFirst (h : s.AgendaConsistent) (seq : Seq8) (c : ClaimState) :
    ({ s with agenda := settleFirst seq c s.agenda } : Station).AgendaConsistent := by
  rw [agendaConsistent_iff] at *
  exact ⟨h.1.settleFirst seq c, h.2.trans (settleFirst_head_fire seq c s.agenda).symm⟩

theorem AgendaConsistent.loseClaim (h : s.AgendaConsistent) (seq : Seq8) (r : LossReason) :
    (s.loseClaim seq r).AgendaConsistent := by
  unfold Station.loseClaim
  split
  · exact h
  · exact h.settleFirst seq .lost

theorem AgendaConsistent.handBack (h : s.AgendaConsistent) (flushed : Bool) (e : TxEntry) :
    (s.handBack flushed e).AgendaConsistent := by
  unfold Station.handBack
  split
  · exact h.loseClaim _ _
  · split <;> exact h
  all_goals exact h

theorem AgendaConsistent.flushQueue (h : s.AgendaConsistent) : s.flushQueue.AgendaConsistent :=
  foldl_induct (P := Station.AgendaConsistent) (fun e _ _ ht => ht.handBack true e) h

theorem AgendaConsistent.countFailure (h : s.AgendaConsistent) : s.countFailure.AgendaConsistent := by
  unfold Station.countFailure
  split
  · exact h
  · split
    · exact AgendaConsistent.flushQueue h
    · exact h

theorem AgendaConsistent.failHead (h : s.AgendaConsistent) (e : TxEntry) : (s.failHead e).AgendaConsistent := by
  unfold Station.failHead
  refine AgendaConsistent.countFailure ?_
  split
  · exact h
  · unfold Station.dropHead
    refine AgendaConsistent.handBack ?_ false e
    exact h

/-! ## Takes -/

theorem AgendaConsistent.removeItem (h : s.AgendaConsistent) (tag : Tag) : (s.removeItem tag).AgendaConsistent :=
  (agendaConsistent_iff _).mpr (AgendaHolds.removeItem ((agendaConsistent_iff s).mp h) tag)

theorem AgendaConsistent.enqueue (h : s.AgendaConsistent) (p : Payload) (o : TxOrigin) :
    (s.enqueue p o).AgendaConsistent := by
  obtain ⟨q, ev, heq⟩ := s.enqueue_frame p o
  rw [heq]
  exact h

theorem AgendaConsistent.mergeVerdict (h : s.AgendaConsistent) (tag : Tag) (v : Verdict) (o : Station5) :
    (s.mergeVerdict tag v o).AgendaConsistent := by
  rw [agendaConsistent_iff] at *
  refine ⟨h.1.sublist (.refl _) fun e _ i hi htag => ⟨_, List.mem_map_of_mem hi, ?_⟩, h.2⟩
  split <;> simpa using htag

theorem AgendaConsistent.takeClaim (h : s.AgendaConsistent) (own : Bool) (t : Pos) (c : Claim) :
    (s.takeClaim own t c).AgendaConsistent := by
  unfold Station.takeClaim
  split
  · split
    · unfold Station.ownEntered
      split
      · exact h.settleFirst _ _
      · refine AgendaConsistent.enqueue ?_ _ _
        exact h
    · exact h
  · split
    · exact h.loseClaim _ _
    · exact h

theorem AgendaConsistent.applyKind (h : s.AgendaConsistent) (own : Bool) (f : Frame) :
    (s.applyKind own f).AgendaConsistent := by
  unfold Station.applyKind
  split
  · unfold Station.takeSight
    split
    · exact h
    · exact h.enterItem _ _
  · unfold Station.takeVerdict
    split
    · exact h
    · split
      · exact h.mergeVerdict _ _ _
      · exact h
  · unfold Station.takeRetire
    split
    · exact h.removeItem _
    · exact h
  · exact h.takeClaim _ _ _
  · exact h
  · exact h

theorem AgendaConsistent.returnToResume (h : s.AgendaConsistent) (c : Cause) :
    (s.returnToResume c).AgendaConsistent := by
  obtain ⟨ct, m, ev, heq⟩ := s.returnToResume_frame c
  rw [heq]
  exact h

theorem AgendaConsistent.resolveDrift (h : s.AgendaConsistent) : s.resolveDrift.AgendaConsistent :=
  AgendaConsistent.returnToResume (s := { s with pos.suspect := none }) h .resolved

theorem AgendaConsistent.resolveSkew (h : s.AgendaConsistent) (o : Station5) (k : Pos) :
    (s.resolveSkew o k).AgendaConsistent := by
  unfold Station.resolveSkew
  split
  · exact h
  · split
    · unfold Station.suspectSpeaks
      split
      · exact h.resolveDrift
      · exact h
    · unfold Station.thirdOpinion
      split
      · exact AgendaConsistent.resolveDrift (s := Station.addRecord _ _) h
      · split
        · exact AgendaConsistent.resolveDrift (s := Station.addRecord _ _) (h.align k)
        · exact h

theorem AgendaConsistent.judgePosition (h : s.AgendaConsistent) (o : Station5) (k : Pos) :
    (s.judgePosition o k).AgendaConsistent := by
  have check : (s.checkSkew o k).AgendaConsistent := by
    unfold Station.checkSkew
    split <;> exact h
  unfold Station.judgePosition
  split
  · exact h.align k
  · exact check
  · exact check
  · exact h.resolveSkew o k
  · exact h
  · exact h

theorem AgendaConsistent.applyFrame (h : s.AgendaConsistent) (own : Bool) (f : Frame) :
    (s.applyFrame own f).AgendaConsistent :=
  AgendaConsistent.applyKind (s := s.purge f.stamp) h own f

theorem AgendaConsistent.takeOther (h : s.AgendaConsistent) (f : Frame) : (s.takeOther f).AgendaConsistent := by
  unfold Station.takeOther
  obtain ⟨e₁, h₁⟩ := s.noteDuplicate_frame f
  obtain ⟨ct, g, m, e₂, h₂⟩ := (s.noteDuplicate f).countGoodFrame_frame
  refine AgendaConsistent.applyFrame (AgendaConsistent.judgePosition ?_ _ _) _ _
  rw [h₂, h₁]
  exact h

theorem AgendaConsistent.takeFrame (h : s.AgendaConsistent) (f : Frame) : (s.takeFrame f).AgendaConsistent := by
  unfold Station.takeFrame
  split
  · exact h
  · split
    · exact AgendaConsistent.applyFrame (s := s.frameOver.takeOwn) h _ _
    · split
      · exact AgendaConsistent.takeOther (s := s.frameOver) h f
      · exact h

end Station

/-! ## Every step -/

theorem agendaConsistent_keptByBlocks : KeptByBlocks Station.AgendaConsistent where
  ties _ _ h := h
  port _ _ h := h
  events _ _ h := h
  resetAt _ _ := Station.agendaConsistent_of_empty rfl rfl
  tick _ h := h
  encoderChange _ new h := h.encoderChange new
  seeStartBit s h := by unfold Station.seeStartBit; split <;> exact h
  seeIdleGap s h := by unfold Station.seeIdleGap; split <;> exact h
  startFrame s h := by unfold Station.startFrame; split <;> exact h
  loseArbitration s h := by unfold Station.loseArbitration; split <;> exact h
  findBitClash s h := by
    unfold Station.findBitClash
    split
    · exact h
    · split
      · refine Station.AgendaConsistent.failHead ?_ _
        exact h
      · exact h
  attemptFails s h := by
    unfold Station.attemptFails
    split
    · exact h
    · split
      · refine Station.AgendaConsistent.failHead ?_ _
        exact h
      · exact h
  judgeLevels s levels h := by
    unfold Station.judgeLevels
    split
    · split <;> exact h
    · exact h
  frameRejected s h := by unfold Station.frameRejected; split <;> exact h
  takeFrame _ f h := h.takeFrame f
  markExpires s h := by
    unfold Station.markExpires
    split
    · exact h
    · split
      · exact h
      · split <;> exact h
  joinExpires s h := by unfold Station.joinExpires; split <;> exact h
  sensorRead s n level h := by
    obtain ⟨se, q, ev, heq⟩ := s.sensorRead_frame n level
    rw [heq]
    exact h
  auxRead s n level h := by
    obtain ⟨a, ch, ev, k, heq⟩ := s.auxRead_frame n level
    rw [heq]
    exact h
  delayExpires s c h := by
    obtain ⟨ch, heq⟩ := s.delayExpires_frame c
    rw [heq]
    exact h
  highExpires s c h := by
    obtain ⟨ch, ev, heq⟩ := s.highExpires_frame c
    rw [heq]
    exact h
  lowExpires s c h := by
    obtain ⟨ch, heq⟩ := s.lowExpires_frame c
    rw [heq]
    exact h
  holdCapExpires s c h := by
    obtain ⟨ch, ev, heq⟩ := s.holdCapExpires_frame c
    rw [heq]
    exact h
  accept _ _ _ h := h
  stop _ _ := Station.agendaConsistent_of_empty rfl rfl
  resume s _ h := Station.AgendaConsistent.returnToResume (s := { s with link.goodRun := 0 }) h .resume
  makeSighting s pos lane cls _ h := by
    obtain ⟨q, ev, heq⟩ := s.makeSighting_frame pos lane cls
    rw [heq]
    exact h
  enqueueHost _ p _ h := h.enqueue p .host
  removeItem _ tag _ h := h.removeItem tag
  fireRequest s c sl src item h := by
    obtain ⟨ch, ev, heq⟩ := s.fireRequest_frame c sl src item
    rw [heq]
    exact h
  setCommit _ _ _ h := h
  takeItem s i x t _ ht h := by
    obtain ⟨rf, sb, ch, ev, k, heq⟩ := (Station.takeItem_frame ht).eq
    rw [heq]
    exact h

/-- Settles O57, block by block: an agenda in order stays so under removals, under insertions at their place, and under
moves of the position that are followed by the match or by the sweep of what is no longer ahead. -/
theorem everyStepKeepsTheAgenda : Obligations.EveryStepKeepsTheAgenda :=
  agendaConsistent_keptByBlocks.keptByEveryStep

end Sys2Proof.Machine

/-! PROOF. The queue's in-flight flags under every operation, and station control's invariant under every step. -/

namespace Sys2Proof.Machine

/-! ## In-flight flags -/

/-- Only the head of a queue can be in flight. -/
def HeadOnly (q : List TxEntry) : Prop := ∀ e ∈ q.tail, e.inFlight = false

/-- The head of a queue is in flight. -/
def headFlight : List TxEntry → Bool
  | [] => false
  | e :: _ => e.inFlight

theorem Station.headInFlight_eq (s : Station) : s.headInFlight = headFlight s.link.txq := by
  unfold Station.headInFlight
  cases s.link.txq <;> rfl

/-- A queue whose only flight can be its head's becomes another such queue, with its head in flight as before. -/
def KeepsFlight (q q' : List TxEntry) : Prop := HeadOnly q → HeadOnly q' ∧ headFlight q' = headFlight q

namespace KeepsFlight

variable {q q' q'' : List TxEntry}

theorem refl (q : List TxEntry) : KeepsFlight q q := fun h => ⟨h, rfl⟩

theorem trans (h : KeepsFlight q q') (h' : KeepsFlight q' q'') : KeepsFlight q q'' := fun hq => by
  obtain ⟨h₁, h₂⟩ := h hq
  obtain ⟨h₁', h₂'⟩ := h' h₁
  exact ⟨h₁', h₂'.trans h₂⟩

/-- An entry that is not in flight joins the back. -/
theorem append_waiting (q : List TxEntry) {e : TxEntry} (he : e.inFlight = false) : KeepsFlight q (q ++ [e]) := by
  intro h
  cases q with
  | nil => exact ⟨fun _ hx => (nomatch hx), he⟩
  | cons f fs =>
    refine ⟨fun x hx => ?_, rfl⟩
    rcases List.mem_append.mp hx with hx | hx
    · exact h x hx
    · rw [List.mem_singleton.mp hx]; exact he

/-- An entry that is not in flight leaves, from wherever it stands. -/
theorem erase_waiting (q : List TxEntry) {p : TxEntry → Bool} (hp : ∀ e, p e = true → e.inFlight = false) :
    KeepsFlight q (q.eraseP p) := by
  intro h
  cases q with
  | nil => exact ⟨h, rfl⟩
  | cons f fs =>
    cases hf : p f with
    | true =>
      rw [List.eraseP_cons_of_pos hf]
      refine ⟨fun x hx => h x (List.mem_of_mem_tail hx), ?_⟩
      cases fs with
      | nil => exact (hp f hf).symm
      | cons g gs => exact (h g (.head _)).trans (hp f hf).symm
    | false =>
      rw [List.eraseP_cons_of_neg (by simp [hf])]
      exact ⟨fun x hx => h x (List.mem_of_mem_eraseP hx), rfl⟩

/-- Each entry changes but for its flag. -/
theorem map (q : List TxEntry) {f : TxEntry → TxEntry} (hf : ∀ e, (f e).inFlight = e.inFlight) :
    KeepsFlight q (q.map f) := by
  intro h
  cases q with
  | nil => exact ⟨h, rfl⟩
  | cons e es =>
    refine ⟨fun x hx => ?_, hf e⟩
    obtain ⟨y, hy, rfl⟩ := List.mem_map.mp hx
    exact (hf y).trans (h y hy)

end KeepsFlight

theorem TxEntry.inFlight_of_isWaitingClaim {seq : Seq8} {e : TxEntry} (h : e.isWaitingClaim seq = true) :
    e.inFlight = false := by
  unfold TxEntry.isWaitingClaim at h
  split at h <;> simp_all

@[simp] theorem TxEntry.align_inFlight (k : Pos) (e : TxEntry) : (e.align k).inFlight = e.inFlight := by
  unfold TxEntry.align
  split
  · split <;> rfl
  all_goals rfl

namespace Station

/-! ## The queue under the operations of the blocks -/

/-- An operation leaves the queue's flight as it is. -/
def FlightKept (s t : Station) : Prop := KeepsFlight s.link.txq t.link.txq

theorem FlightKept.refl (s : Station) : FlightKept s s := KeepsFlight.refl _

theorem FlightKept.trans {s t u : Station} (h : FlightKept s t) (h' : FlightKept t u) : FlightKept s u :=
  KeepsFlight.trans h h'

theorem FlightKept.foldl {α : Type} {act : Station → α → Station} (hact : ∀ t x, FlightKept t (act t x)) (xs : List α)
    (s : Station) : FlightKept s (xs.foldl act s) :=
  foldl_induct (P := FlightKept s) (fun x _ t h => h.trans (hact t x)) (.refl s)

theorem enqueue_flightKept (s : Station) (p : Payload) (o : TxOrigin) : FlightKept s (s.enqueue p o) := by
  unfold Station.enqueue
  split
  · exact .refl s
  · exact KeepsFlight.append_waiting _ rfl

theorem releaseClaim_flightKept (s : Station) (e : Entry) : FlightKept s (s.releaseClaim e) := by
  unfold Station.releaseClaim
  split
  · split
    · exact s.enqueue_flightKept _ _
    · exact .refl s
  · exact KeepsFlight.erase_waiting _ fun _ => TxEntry.inFlight_of_isWaitingClaim
  · exact .refl s
  · exact .refl s

theorem leaveAll_flightKept {handle : Entry → Station → Station} (hh : ∀ e t, (handle e t).link = t.link)
    (es : List Entry) (s : Station) : FlightKept s (s.leaveAll handle es) := by
  refine FlightKept.foldl (act := Station.leaveAgenda handle) (fun t e => ?_) es s
  have h := releaseClaim_flightKept { t with agenda := t.agenda.erase e } e
  unfold FlightKept Station.leaveAgenda
  rw [hh]
  exact h

theorem takeMatch_flightKept (s : Station) : FlightKept s s.takeMatch :=
  leaveAll_flightKept (fun e t => by obtain ⟨ch, ev, h⟩ := t.judgeMatched_frame e; rw [h]) _ s

theorem lateSweep_flightKept (s : Station) : FlightKept s s.lateSweep :=
  leaveAll_flightKept (fun e t => by
    obtain ⟨ch, ev, h⟩ := t.handleLate_frame e.template e.item (dist t.pos.count e.fire)
    rw [h]) _ s

theorem removeItem_flightKept (s : Station) (tag : Tag) : FlightKept s (s.removeItem tag) :=
  leaveAll_flightKept (fun _ _ => rfl) _ { s with track := s.track.eraseP (fun i => i.tag == tag) }

theorem removeOldest_flightKept (n : Nat) (s : Station) : FlightKept s (s.removeOldest n) := by
  induction n generalizing s with
  | zero => exact .refl s
  | succ n ih =>
    unfold Station.removeOldest
    split
    · exact .refl s
    · split
      · exact (s.removeItem_flightKept _).trans (ih _)
      · exact .refl s

theorem claimFor_flightKept (s : Station) (t : Fin 16) (i : Tag) (f : Pos) :
    FlightKept s (s.claimFor t i f).station := by
  unfold Station.claimFor Station.makeClaim Station.sendClaim
  split
  · exact .refl s
  · split
    · exact .refl s
    · split
      · exact .refl s
      · split
        · exact .refl s
        · exact KeepsFlight.append_waiting _ rfl

theorem insertFor_flightKept (s : Station) (i : Item) (t : Fin 16) : FlightKept s (s.insertFor i t) := by
  unfold Station.insertFor
  split
  · exact .refl s
  · split
    · obtain ⟨ch, ev, h⟩ := s.handleLate_frame t i.tag (dist s.pos.count ((s.template t).firePosition i))
      rw [h]
      exact .refl s
    · split
      · exact .refl s
      · exact s.claimFor_flightKept t i.tag _

theorem loadMatch_flightKept (s : Station) : FlightKept s s.loadMatch := .refl s

theorem insertItem_flightKept (s : Station) (i : Item) : FlightKept s (s.insertItem i) :=
  (FlightKept.foldl (fun t x => t.insertFor_flightKept i x) _ s).trans (loadMatch_flightKept _)

theorem applyKind_flightKept (s : Station) (own : Bool) (f : Frame) : FlightKept s (s.applyKind own f) := by
  unfold Station.applyKind
  split
  · unfold Station.takeSight
    split
    · exact .refl s
    · exact insertItem_flightKept { s with track := placeItem f.stamp _ s.track } _
  · unfold Station.takeVerdict
    split
    · exact .refl s
    · split <;> exact .refl s
  · unfold Station.takeRetire
    split
    · exact s.removeItem_flightKept _
    · exact .refl s
  · unfold Station.takeClaim
    split
    · split
      · unfold Station.ownEntered
        split
        · exact .refl s
        · exact enqueue_flightKept (Station.addRecord _ (s.enterClaim _ _)) _ _
      · exact .refl s
    · split
      · obtain ⟨ag, ev, h⟩ := s.loseClaim_frame _ _
        rw [h]
        exact .refl s
      · exact .refl s
  · exact .refl s
  · exact .refl s

theorem align_flightKept (s : Station) (k : Pos) : FlightKept s (s.align k) :=
  FlightKept.trans (t := s.moveCount k) (KeepsFlight.map _ (TxEntry.align_inFlight k)) (lateSweep_flightKept _)

theorem makeSighting_flightKept (s : Station) (pos : Pos) (lane : BitVec 2) (cls : BitVec 4) :
    FlightKept s (s.makeSighting pos lane cls) :=
  enqueue_flightKept { s with sense.seq := s.sense.seq + 1 } (.sight s.sense.seq pos lane cls) .sensor

theorem takeEdge_flightKept (s : Station) (n : Fin 4) : FlightKept s (s.takeEdge n) := by
  unfold Station.takeEdge
  split
  · exact .refl s
  · exact makeSighting_flightKept (s.setSensor n { s.sensor n with last := some s.pos.count }) _ _ _

end Station

end Sys2Proof.Machine

/-! PROOF. Station control's invariant: what operations that leave station control keep of it, what the changes of the
station state make of it, and that every step keeps it. -/

namespace Sys2Proof.Machine

/-! ## Timers -/

@[simp] theorem Timer.tick_eq_stopped_iff (m : Timer) : m.tick = .stopped ↔ m = .stopped := by
  cases m <;> simp [Timer.tick]

/-! ## The line -/

namespace Station

variable {s t : Station}

theorem lineConsistent_iff (s : Station) :
    s.LineConsistent ↔ HeadOnly s.link.txq ∧
      (headFlight s.link.txq = true → s.ctl.state.inService = true ∧ s.link.receiving = false) ∧
      (headFlight s.link.txq = true ↔ s.link.drive = .frame) ∧
      (s.link.idle = true → s.link.receiving = false ∧ headFlight s.link.txq = false) ∧
      (s.ctl.state = .halted → s.link.drive = .released) ∧
      (s.ctl.state = .mute → s.link.drive = .released ∨ s.link.drive = .breaks) := by
  unfold Station.LineConsistent
  rw [headInFlight_eq]
  rfl

/-- No entry of the queue is in flight. -/
def AllWaiting (s : Station) : Prop := ∀ e ∈ s.link.txq, e.inFlight = false

theorem AllWaiting.headFlight (h : s.AllWaiting) : headFlight s.link.txq = false := by
  unfold AllWaiting at h
  cases hq : s.link.txq with
  | nil => rfl
  | cons e es => rw [hq] at h; exact h e (.head _)

/-- A queue of which only the head could be in flight waits as a whole when the head does. -/
theorem allWaiting_of_headOnly (h : HeadOnly s.link.txq) (hf : Machine.headFlight s.link.txq = false) :
    s.AllWaiting := by
  unfold AllWaiting
  cases hq : s.link.txq with
  | nil => exact fun _ hx => (nomatch hx)
  | cons e es =>
    rw [hq] at h hf
    rintro x (_ | ⟨_, hx⟩)
    · exact hf
    · exact h x hx

/-- The line rules of a station with nothing in flight. -/
theorem lineConsistent_of_allWaiting (hq : s.AllWaiting) (hd : s.link.drive ≠ .frame)
    (hi : s.link.idle = true → s.link.receiving = false) (hh : s.ctl.state = .halted → s.link.drive = .released)
    (hm : s.ctl.state = .mute → s.link.drive = .released ∨ s.link.drive = .breaks) : s.LineConsistent := by
  have hf := hq.headFlight
  rw [lineConsistent_iff]
  refine ⟨fun e he => hq e (List.mem_of_mem_tail he), fun h => ?_, ?_, fun h => ⟨hi h, hf⟩, hh, hm⟩
  · rw [hf] at h; cases h
  · rw [hf]; exact ⟨fun h => (nomatch h), fun h => absurd h hd⟩

theorem LineConsistent.allWaiting (h : s.LineConsistent) (hd : s.link.drive ≠ .frame) : s.AllWaiting := by
  obtain ⟨hq, -, hdrive, -⟩ := (lineConsistent_iff s).mp h
  exact allWaiting_of_headOnly hq (Bool.eq_false_iff.mpr fun hf => hd (hdrive.mp hf))

/-- A frame is driven in service alone. -/
theorem LineConsistent.not_frame_of_not_inService (h : s.LineConsistent) (hs : s.ctl.state.inService = false) :
    s.link.drive ≠ .frame := by
  obtain ⟨-, hfl, hdrive, -⟩ := (lineConsistent_iff s).mp h
  intro hd
  have := (hfl (hdrive.mpr hd)).1
  rw [hs] at this
  cases this

/-- No frame is driven while another station's is being decoded. -/
theorem LineConsistent.not_frame_of_receiving (h : s.LineConsistent) (hr : s.link.receiving = true) :
    s.link.drive ≠ .frame := by
  obtain ⟨-, hfl, hdrive, -⟩ := (lineConsistent_iff s).mp h
  intro hd
  have := (hfl (hdrive.mpr hd)).2
  rw [hr] at this
  cases this

/-! ## Operations that leave station control -/

/-- The station state, the resume state, the suspect record, the settings and the link controller are left, but for
entries of the queue that are not in flight, and a settle start that is present may move. -/
structure ControlFrame (s t : Station) : Prop where
  ctl : t.ctl = { s.ctl with settleStart := t.ctl.settleStart }
  settle : t.ctl.settleStart.isSome = s.ctl.settleStart.isSome
  suspect : t.pos.suspect = s.pos.suspect
  settings : t.settings = s.settings
  link : t.link = { s.link with txq := t.link.txq }
  flight : FlightKept s t

theorem ControlFrame.refl (s : Station) : ControlFrame s s := ⟨rfl, rfl, rfl, rfl, rfl, .refl s⟩

theorem ControlFrame.state (h : ControlFrame s t) : t.ctl.state = s.ctl.state := by rw [h.ctl]

/-- START validation looks at the settings alone. -/
theorem validate_of_settings (h : t.settings = s.settings) : t.validate = s.validate := by
  cases s
  cases t
  cases h
  rfl

theorem ControlFrame.line (h : ControlFrame s t) (hs : s.LineConsistent) : t.LineConsistent := by
  rw [lineConsistent_iff] at *
  obtain ⟨hq, hrest⟩ := hs
  obtain ⟨hq', hf⟩ := h.flight hq
  rw [h.state, hf]
  refine ⟨hq', ?_⟩
  rw [h.link]
  exact hrest

theorem ControlFrame.control (h : ControlFrame s t) (hs : s.ControlConsistent) : t.ControlConsistent := by
  unfold Station.ControlConsistent StationControl.settlingSomewhere at *
  rw [h.settle, h.suspect, h.settings, h.link, h.ctl]
  exact hs

theorem ControlFrame.validated (h : ControlFrame s t) (hs : s.ValidatedInService) : t.ValidatedInService := by
  unfold Station.ValidatedInService at *
  rw [h.state, validate_of_settings h.settings]
  exact hs

/-! ## The invariant -/

/-- The tables, the queue and the match register are empty (R41, R50). -/
def TablesEmpty (s : Station) : Prop :=
  s.track = [] ∧ s.agenda = [] ∧ s.claims = [] ∧ s.link.txq = [] ∧ s.pos.matchReg = none

/-- The station is past JOINING. -/
def Joined (s : Station) : Prop := s.ctl.state ≠ .halted ∧ s.ctl.state ≠ .joining

theorem not_joined_iff : ¬ s.Joined ↔ s.ctl.state = .halted ∨ s.ctl.state = .joining := by
  unfold Joined
  tauto

theorem Joined.emptyOutOfService (h : s.Joined) : s.EmptyOutOfService :=
  fun hout => (hout.elim h.1 h.2).elim

theorem joined_of_inService (h : s.ctl.state.inService = true) : s.Joined := by
  rcases (StationState.inService_iff _).mp h with h | h <;> exact ⟨by rw [h]; decide, by rw [h]; decide⟩

/-- The line rules, the presence rules of station control, the emptiness of the tables out of service, and settings that
passed START validation. -/
def InControl (s : Station) : Prop :=
  s.LineConsistent ∧ s.ControlConsistent ∧ s.EmptyOutOfService ∧ s.ValidatedInService

/-- An operation that leaves station control keeps the invariant where it fills no empty table. -/
theorem ControlFrame.keeps (h : ControlFrame s t) (he : ¬ s.Joined → s.TablesEmpty → t.TablesEmpty)
    (hs : s.InControl) : t.InControl := by
  obtain ⟨hline, hctl, hempty, hval⟩ := hs
  refine ⟨h.line hline, h.control hctl, fun hout => ?_, h.validated hval⟩
  rw [h.state] at hout
  exact he (fun hj => hout.elim hj.1 hj.2) (hempty hout)

theorem ControlFrame.keeps_of_joined (h : ControlFrame s t) (hj : s.Joined) (hs : s.InControl) : t.InControl :=
  h.keeps (fun hnj => absurd hj hnj) hs

/-! ## Steps -/

theorem takeMatch_controlFrame (s : Station) : ControlFrame s s.takeMatch := by
  have hf := s.takeMatch_flightKept
  obtain ⟨q, ch, ev, heq⟩ := s.takeMatch_frame
  rw [heq] at hf ⊢
  exact ⟨rfl, rfl, rfl, rfl, rfl, hf⟩

theorem lateSweep_controlFrame (s : Station) : ControlFrame s s.lateSweep := by
  have hf := s.lateSweep_flightKept
  obtain ⟨q, ch, ev, heq⟩ := s.lateSweep_frame
  rw [heq] at hf ⊢
  exact ⟨rfl, rfl, rfl, rfl, rfl, hf⟩

theorem removeItem_controlFrame (s : Station) (tag : Tag) : ControlFrame s (s.removeItem tag) := by
  have hf := s.removeItem_flightKept tag
  obtain ⟨q, ev, heq⟩ := s.removeItem_frame tag
  rw [heq] at hf ⊢
  exact ⟨rfl, rfl, rfl, rfl, rfl, hf⟩

theorem removeOldest_controlFrame (n : Nat) (s : Station) : ControlFrame s (s.removeOldest n) := by
  have hf := s.removeOldest_flightKept n
  obtain ⟨tr, ag, q, ev, m, heq⟩ := s.removeOldest_frame n
  rw [heq] at hf ⊢
  exact ⟨rfl, rfl, rfl, rfl, rfl, hf⟩

theorem align_controlFrame (s : Station) (k : Pos) : ControlFrame s (s.align k) := by
  have hf := s.align_flightKept k
  obtain ⟨q, ch, ev, heq⟩ := s.align_frame k
  rw [heq] at hf ⊢
  exact ⟨rfl, by simp [moveCount], rfl, rfl, rfl, hf⟩

theorem takeMatch_of_empty (h : s.agenda = []) : s.takeMatch = s.loadMatch := by
  unfold Station.takeMatch Station.leaveAll
  rw [h]
  rfl

theorem lateSweep_of_empty (h : s.agenda = []) : s.lateSweep = s.loadMatch := by
  unfold Station.lateSweep Station.leaveAll
  rw [h]
  rfl

theorem TablesEmpty.loadMatch (h : s.TablesEmpty) : s.loadMatch.TablesEmpty := by
  obtain ⟨htr, hag, hcl, hq, -⟩ := h
  exact ⟨htr, hag, hcl, hq, by rw [loadMatch_pos_matchReg, hag]; rfl⟩

theorem TablesEmpty.lateSweep (h : s.TablesEmpty) : s.lateSweep.TablesEmpty := by
  rw [lateSweep_of_empty h.2.1]
  exact h.loadMatch

theorem TablesEmpty.takeMatch (h : s.TablesEmpty) : s.takeMatch.TablesEmpty := by
  rw [takeMatch_of_empty h.2.1]
  exact h.loadMatch

theorem TablesEmpty.horizonRemoval (h : s.TablesEmpty) : s.horizonRemoval.TablesEmpty := by
  unfold Station.horizonRemoval
  rw [h.1]
  exact h

/-! ## Presence, state by state -/

theorem fullMark_ne_stopped_iff (s : Station) : s.fullMark ≠ .stopped ↔ s.settings.markInterval ≠ 0 := by
  unfold Station.fullMark
  split <;> simp_all

theorem controlConsistent_iff_of_inService (h : s.ctl.state.inService = true) :
    s.ControlConsistent ↔ s.ctl.resume = none ∧ s.pos.suspect = none ∧
      (s.ctl.settleStart.isSome = true ↔ s.ctl.state = .settling) ∧ s.ctl.join = .stopped ∧
      (s.link.mark ≠ .stopped ↔ s.settings.markInterval ≠ 0) ∧ s.link.goodRun = 0 := by
  unfold Station.ControlConsistent StationControl.settlingSomewhere
  rcases (StationState.inService_iff _).mp h with hst | hst <;> cases hr : s.ctl.resume <;>
    simp [hst, StationState.inService]

theorem controlConsistent_iff_of_away (h : s.ctl.state = .drifted ∨ s.ctl.state = .mute) :
    s.ControlConsistent ↔ s.ctl.resume.isSome = true ∧ (s.pos.suspect.isSome = true ↔ s.ctl.state = .drifted) ∧
      (s.ctl.settleStart.isSome = true ↔ s.ctl.resume = some .settling) ∧ s.ctl.join = .stopped ∧
      s.link.mark = .stopped ∧ (s.link.goodRun ≠ 0 → s.ctl.state = .mute) := by
  unfold Station.ControlConsistent StationControl.settlingSomewhere
  rcases h with hst | hst <;> simp [hst, StationState.inService, iff_def, and_assoc]

theorem controlConsistent_iff_of_not_joined (h : ¬ s.Joined) :
    s.ControlConsistent ↔ s.ctl.resume = none ∧ s.pos.suspect = none ∧ s.ctl.settleStart = none ∧
      (s.ctl.join ≠ .stopped ↔ s.ctl.state = .joining) ∧ s.link.mark = .stopped ∧ s.link.goodRun = 0 := by
  have hst := not_joined_iff.mp h
  unfold Station.ControlConsistent StationControl.settlingSomewhere
  rcases hst with hst | hst <;> cases hr : s.ctl.resume <;> simp [hst, StationState.inService]

/-! ## Changes of the station state -/

/-- A station that comes into service, or stays in it, keeps the line rules whatever its timer does. -/
theorem LineConsistent.of_inService (h : s.LineConsistent)
    (hlink : t.link = { s.link with mark := t.link.mark, goodRun := t.link.goodRun })
    (ht : t.ctl.state.inService = true) : t.LineConsistent := by
  rw [lineConsistent_iff] at *
  obtain ⟨hq, hf, hd, hi, -, -⟩ := h
  have hne : t.ctl.state ≠ .halted ∧ t.ctl.state ≠ .mute := by
    rcases (StationState.inService_iff _).mp ht with h | h <;> rw [h] <;> decide
  rw [hlink]
  exact ⟨hq, fun hfl => ⟨ht, (hf hfl).2⟩, hd, hi, fun h => absurd h hne.1, fun h => absurd h hne.2⟩

/-- A station that is not HALTED runs on validated settings. -/
theorem ValidatedInService.validate (h : s.ValidatedInService) (hs : s.ctl.state ≠ .halted) : s.validate = none :=
  h.resolve_left hs

theorem validatedInService_of_settings (h : s.ValidatedInService) (hs : s.ctl.state ≠ .halted)
    (ht : t.settings = s.settings) : t.ValidatedInService :=
  .inr ((validate_of_settings ht).trans (h.validate hs))

/-- The completed settle span takes SETTLING to ACTIVE, as the state or as the resume state (R57, R58). -/
theorem InControl.settleStep (h : s.InControl) : s.settleStep.InControl := by
  unfold Station.settleStep
  split
  · exact h
  · obtain ⟨hline, hctl, hempty, hval⟩ := h
    split
    · next hst =>
      have hin : s.ctl.state.inService = true := by rw [hst]; rfl
      obtain ⟨hre, hsus, hset, hjoin, hmark, hgood⟩ := (controlConsistent_iff_of_inService hin).mp hctl
      refine ⟨hline.of_inService rfl rfl, ?_, (joined_of_inService rfl).emptyOutOfService,
        validatedInService_of_settings hval (by rw [hst]; decide) rfl⟩
      rw [controlConsistent_iff_of_inService rfl]
      exact ⟨hre, hsus, by simp, hjoin, hmark, hgood⟩
    · split
      · next hre =>
        have haway : s.ctl.state = .drifted ∨ s.ctl.state = .mute := hctl.1.mp (by rw [hre]; rfl)
        obtain ⟨-, hsus, hset, hjoin, hmark, hgood⟩ := (controlConsistent_iff_of_away haway).mp hctl
        refine ⟨hline, ?_, hempty, hval⟩
        rw [controlConsistent_iff_of_away (s := { s with ctl.settleStart := none, ctl.resume := some .active }) haway]
        exact ⟨rfl, hsus, by simp, hjoin, hmark, hgood⟩
      · exact ⟨hline, hctl, hempty, hval⟩

/-- The station enters SETTLING from JOINING (R17, R55, R56). -/
theorem inControl_enterSettling (hst : s.ctl.state = .joining) (hline : s.LineConsistent)
    (hctl : s.ControlConsistent) (hval : s.ValidatedInService) (c : Cause) : (s.enterSettling c).InControl := by
  have hnj : ¬ s.Joined := fun hj => hj.2 hst
  obtain ⟨hre, hsus, -, -, -, hgood⟩ := (controlConsistent_iff_of_not_joined hnj).mp hctl
  refine ⟨hline.of_inService rfl rfl, ?_, (joined_of_inService rfl).emptyOutOfService,
    validatedInService_of_settings hval (by rw [hst]; decide) rfl⟩
  rw [controlConsistent_iff_of_inService rfl]
  unfold Station.enterSettling
  exact ⟨hre, hsus, by simp, rfl, by rw [startMark_link_mark]; exact fullMark_ne_stopped_iff _, hgood⟩

/-- The return from DRIFTED or MUTE, once the suspect record is absent and the good-frame run is 0 (R60, R62). -/
theorem inControl_returnToResume (hst : s.ctl.state = .drifted ∨ s.ctl.state = .mute) (hline : s.LineConsistent)
    (hre : s.ctl.resume.isSome = true) (hset : s.ctl.settleStart.isSome = true ↔ s.ctl.resume = some .settling)
    (hjoin : s.ctl.join = .stopped) (hsus : s.pos.suspect = none) (hgood : s.link.goodRun = 0)
    (hval : s.ValidatedInService) (c : Cause) :
    (s.returnToResume c).InControl ∧ (s.returnToResume c).ctl.state.inService = true := by
  obtain ⟨r, hr⟩ := Option.isSome_iff_exists.mp hre
  have hin : r.toState.inService = true := by cases r <;> rfl
  have hne : s.ctl.state ≠ .halted := by rcases hst with h | h <;> rw [h] <;> decide
  rw [returnToResume_of hr]
  refine ⟨⟨hline.of_inService rfl hin, ?_, (joined_of_inService hin).emptyOutOfService,
    validatedInService_of_settings hval hne rfl⟩, hin⟩
  rw [controlConsistent_iff_of_inService hin]
  refine ⟨rfl, hsus, ?_, hjoin, by rw [startMark_link_mark]; exact fullMark_ne_stopped_iff _, hgood⟩
  show s.ctl.settleStart.isSome = true ↔ r.toState = .settling
  rw [hset, hr]
  cases r <;> simp [ResumeState.toState]

/-- A DRIFTED station returns (R20, R21, R60). -/
theorem InControl.resolveDrift (h : s.InControl) (hst : s.ctl.state = .drifted) :
    s.resolveDrift.InControl ∧ s.resolveDrift.ctl.state.inService = true := by
  obtain ⟨hline, hctl, -, hval⟩ := h
  obtain ⟨hre, -, hset, hjoin, -, hgood⟩ := (controlConsistent_iff_of_away (.inl hst)).mp hctl
  have hgood : s.link.goodRun = 0 := by
    by_contra hne
    have := hgood hne
    rw [hst] at this
    cases this
  exact inControl_returnToResume (s := { s with pos.suspect := none }) (.inl hst) hline hre hset hjoin rfl hgood hval _

/-- A MUTE station returns (R45, R62). -/
theorem InControl.unmute (h : s.InControl) (hst : s.ctl.state = .mute) (c : Cause) :
    ({ s with link.goodRun := 0 }.returnToResume c).InControl := by
  obtain ⟨hline, hctl, -, hval⟩ := h
  obtain ⟨hre, hsus, hset, hjoin, -, -⟩ := (controlConsistent_iff_of_away (.inr hst)).mp hctl
  have hsus : s.pos.suspect = none := by
    cases hp : s.pos.suspect with
    | none => rfl
    | some u => rw [hp, hst] at hsus; exact absurd (hsus.mp rfl) (by decide)
  exact (inControl_returnToResume (s := { s with link.goodRun := 0 }) (.inr hst) hline hre hset hjoin hsus rfl hval c).1

/-- SETTLING and ACTIVE leave themselves behind as the resume state (R49). -/
theorem toResume_of_inService {st : StationState} (h : st.inService = true) :
    st.toResume.isSome = true ∧ (st.toResume = some .settling ↔ st = .settling) := by
  rcases (StationState.inService_iff st).mp h with rfl | rfl <;> decide

/-- A failed skew check takes a station in service, with nothing in flight, to DRIFTED (R19, R59). -/
theorem InControl.enterDrifted (h : s.InControl) (hin : s.ctl.state.inService = true) (hd : s.link.drive ≠ .frame)
    (o : Station5) (k : Pos) : (s.enterDrifted o k).InControl := by
  obtain ⟨hline, hctl, -, hval⟩ := h
  obtain ⟨-, -, hset, hjoin, -, hgood⟩ := (controlConsistent_iff_of_inService hin).mp hctl
  obtain ⟨-, -, -, hi, -, -⟩ := (lineConsistent_iff s).mp hline
  obtain ⟨hre, hres⟩ := toResume_of_inService hin
  refine ⟨lineConsistent_of_allWaiting (hline.allWaiting hd) hd (fun h => (hi h).1) (fun h => (nomatch h))
    (fun h => (nomatch h)), ?_, Joined.emptyOutOfService ⟨by simp [Station.enterDrifted], by simp [Station.enterDrifted]⟩,
    validatedInService_of_settings hval (joined_of_inService hin).1 rfl⟩
  rw [controlConsistent_iff_of_away (.inl rfl)]
  exact ⟨hre, iff_of_true rfl rfl, hset.trans hres.symm, hjoin, rfl, fun h => absurd hgood h⟩

/-- The 16th failure takes a station in service, with nothing in flight, to MUTE (R38, R61). -/
theorem InControl.enterMute (h : s.InControl) (hin : s.ctl.state.inService = true)
    (hd : s.link.drive = .released ∨ s.link.drive = .breaks) : s.enterMute.InControl := by
  obtain ⟨hline, hctl, -, hval⟩ := h
  obtain ⟨-, hsus, hset, hjoin, -, hgood⟩ := (controlConsistent_iff_of_inService hin).mp hctl
  obtain ⟨-, -, -, hi, -, -⟩ := (lineConsistent_iff s).mp hline
  obtain ⟨hre, hres⟩ := toResume_of_inService hin
  obtain ⟨ag, ev, heq⟩ := Station.flushQueue_frame
    ({ s with ctl.resume := s.ctl.state.toResume, link.mark := .stopped, link.goodRun := 0 }.changeState .mute
      .sendFailures)
  unfold Station.enterMute
  rw [heq]
  refine ⟨lineConsistent_of_allWaiting (fun _ hx => (nomatch hx)) (by rcases hd with hd | hd <;> simp [hd])
    (fun h => (hi h).1) (fun h => (nomatch h)) (fun _ => hd), ?_, Joined.emptyOutOfService ⟨by simp, by simp⟩,
    validatedInService_of_settings hval (joined_of_inService hin).1 rfl⟩
  rw [controlConsistent_iff_of_away (.inr rfl)]
  refine ⟨hre, ?_, hset.trans hres.symm, hjoin, rfl, fun _ => rfl⟩
  show s.pos.suspect.isSome = true ↔ _
  rw [hsus]
  simp

/-! ## Takes -/

theorem InControl.frameOver (h : s.InControl) (hr : s.link.receiving = true) : s.frameOver.InControl := by
  obtain ⟨hline, hctl, hempty, hval⟩ := h
  exact ⟨lineConsistent_of_allWaiting (hline.allWaiting (hline.not_frame_of_receiving hr)) (by simp [Station.frameOver])
    (fun _ => rfl) (fun _ => rfl) (fun _ => .inl rfl), hctl, hempty, hval⟩

theorem InControl.noteDuplicate (h : s.InControl) (f : Frame) : (s.noteDuplicate f).InControl := by
  obtain ⟨ev, heq⟩ := s.noteDuplicate_frame f
  rw [heq]
  exact h

/-- A take in MUTE counts, and the 32nd returns the station (R45). -/
theorem InControl.countGoodFrame (h : s.InControl) : s.countGoodFrame.InControl := by
  unfold Station.countGoodFrame
  split
  · exact h
  · next hst =>
    have hst : s.ctl.state = .mute := not_not.mp hst
    split
    · obtain ⟨hline, hctl, hempty, hval⟩ := h
      obtain ⟨hre, hsus, hset, hjoin, hmark, -⟩ := (controlConsistent_iff_of_away (.inr hst)).mp hctl
      exact ⟨hline, (controlConsistent_iff_of_away (s := { s with link.goodRun := s.link.goodRun + 1 }) (.inr hst)).mpr
        ⟨hre, hsus, hset, hjoin, hmark, fun _ => hst⟩, hempty, hval⟩
    · exact h.unmute hst _

theorem InControl.joinAt (h : s.InControl) (hst : s.ctl.state = .joining) (o : Station5) (k : Pos) :
    (s.joinAt o k).InControl := by
  obtain ⟨hline, hctl, -, hval⟩ := h
  have hf := s.align_controlFrame k
  exact inControl_enterSettling (s := (s.align k).addRecord { kind := .aligned, station := some o, value := some k.toInt })
    (hf.state.trans hst) (hf.line hline) (hf.control hctl) (hf.validated hval) _

theorem InControl.checkSkew (h : s.InControl) (hin : s.ctl.state.inService = true) (hd : s.link.drive ≠ .frame)
    (o : Station5) (k : Pos) : (s.checkSkew o k).InControl ∧ (s.checkSkew o k).Joined := by
  unfold Station.checkSkew
  split
  · exact ⟨h, joined_of_inService hin⟩
  · exact ⟨h.enterDrifted hin hd o k, by simp [Joined, Station.enterDrifted]⟩

/-- A suspect record that is replaced stays present. -/
theorem InControl.withSuspect (h : s.InControl) (hst : s.ctl.state = .drifted) (u : Suspect) :
    ({ s with pos.suspect := some u } : Station).InControl := by
  obtain ⟨hline, hctl, hempty, hval⟩ := h
  obtain ⟨hre, -, hset, hjoin, hmark, hgood⟩ := (controlConsistent_iff_of_away (.inl hst)).mp hctl
  exact ⟨hline, (controlConsistent_iff_of_away (s := { s with pos.suspect := some u }) (.inl hst)).mpr
    ⟨hre, iff_of_true rfl hst, hset, hjoin, hmark, hgood⟩, hempty, hval⟩

theorem InControl.resolveSkew (h : s.InControl) (hst : s.ctl.state = .drifted) (o : Station5) (k : Pos) :
    (s.resolveSkew o k).InControl ∧ (s.resolveSkew o k).Joined := by
  have hj : s.Joined := ⟨by rw [hst]; decide, by rw [hst]; decide⟩
  have resolved : ∀ t : Station, t.InControl → t.ctl.state = .drifted →
      t.resolveDrift.InControl ∧ t.resolveDrift.Joined := fun t ht htst =>
    (ht.resolveDrift htst).imp_right joined_of_inService
  have hf := s.align_controlFrame k
  unfold Station.resolveSkew
  split
  · exact ⟨h, hj⟩
  · split
    · unfold Station.suspectSpeaks
      split
      · exact resolved s h hst
      · exact ⟨h.withSuspect hst _, hj⟩
    · unfold Station.thirdOpinion
      split
      · exact resolved (Station.addRecord _ s) h hst
      · split
        · exact resolved (Station.addRecord _ (s.align k)) (hf.keeps_of_joined hj h) (hf.state.trans hst)
        · exact ⟨h.withSuspect hst _, hj⟩

/-- The position step of a take keeps the invariant and leaves a station that has joined. -/
theorem InControl.judgePosition (h : s.InControl) (hne : s.ctl.state ≠ .halted) (hd : s.link.drive ≠ .frame)
    (o : Station5) (k : Pos) : (s.judgePosition o k).InControl ∧ (s.judgePosition o k).Joined := by
  unfold Station.judgePosition
  split
  · next hst => exact ⟨h.joinAt hst o k, joined_of_inService rfl⟩
  · next hst => exact h.checkSkew (by rw [hst]; rfl) hd o k
  · next hst => exact h.checkSkew (by rw [hst]; rfl) hd o k
  · next hst => exact h.resolveSkew hst o k
  · next hst => exact ⟨h, hne, by rw [hst]; decide⟩
  · next hst => exact absurd hst hne

theorem applyFrame_controlFrame (s : Station) (own : Bool) (f : Frame) : ControlFrame s (s.applyFrame own f) := by
  have hf := (s.purge f.stamp).applyKind_flightKept own f
  obtain ⟨tr, ag, cl, k, ch, q, ev, m, heq⟩ := (s.purge f.stamp).applyKind_frame own f
  unfold Station.applyFrame
  rw [heq] at hf ⊢
  exact ⟨rfl, rfl, rfl, rfl, rfl, hf⟩

theorem countGoodFrame_keeps_halted (hne : s.ctl.state ≠ .halted) : s.countGoodFrame.ctl.state ≠ .halted := by
  unfold Station.countGoodFrame
  split
  · exact hne
  · split
    · exact hne
    · cases hr : s.ctl.resume with
      | none => unfold Station.returnToResume; simp [hr, hne]
      | some r =>
        rw [returnToResume_of (s := { s with link.goodRun := 0 }) hr]
        cases r <;> simp [ResumeState.toState]

theorem InControl.takeOther (h : s.InControl) (hne : s.ctl.state ≠ .halted) (hd : s.link.drive ≠ .frame) (f : Frame) :
    (s.takeOther f).InControl := by
  have hnote : (s.noteDuplicate f).ctl.state ≠ .halted ∧ (s.noteDuplicate f).link.drive ≠ .frame := by
    obtain ⟨ev, heq⟩ := s.noteDuplicate_frame f
    rw [heq]
    exact ⟨hne, hd⟩
  have hdrive : (s.noteDuplicate f).countGoodFrame.link.drive ≠ .frame := by
    obtain ⟨ct, g, m, ev, heq⟩ := (s.noteDuplicate f).countGoodFrame_frame
    rw [heq]
    exact hnote.2
  obtain ⟨hpos, hj⟩ := (h.noteDuplicate f).countGoodFrame.judgePosition (countGoodFrame_keeps_halted hnote.1) hdrive
    f.sender (f.stamp - s.pos.capture)
  exact (applyFrame_controlFrame _ false f).keeps_of_joined hj hpos

/-- The take of the own frame: the head leaves, and the mark timer starts again (R35). -/
theorem InControl.takeOwn (h : s.InControl) {e : TxEntry} {es : List TxEntry} (hq : s.link.txq = e :: es)
    (he : e.inFlight = true) : s.frameOver.takeOwn.InControl ∧ s.frameOver.takeOwn.Joined := by
  obtain ⟨hline, hctl, -, hval⟩ := h
  obtain ⟨hhead, hfl, -, -, -, -⟩ := (lineConsistent_iff s).mp hline
  have hin : s.ctl.state.inService = true := (hfl (by rw [hq]; exact he)).1
  have hj : s.Joined := joined_of_inService hin
  refine ⟨⟨lineConsistent_of_allWaiting hhead (by simp [Station.takeOwn, Station.frameOver]) (fun _ => rfl)
    (fun _ => rfl) (fun _ => .inl rfl), ?_, Joined.emptyOutOfService hj, hval⟩, hj⟩
  obtain ⟨hre, hsus, hset, hjoin, -, hgood⟩ := (controlConsistent_iff_of_inService hin).mp hctl
  refine (controlConsistent_iff_of_inService (s := s.frameOver.takeOwn) hin).mpr ?_
  unfold Station.takeOwn
  exact ⟨hre, hsus, hset, hjoin, by rw [startMark_link_mark]; exact fullMark_ne_stopped_iff _, hgood⟩

theorem InControl.takeFrame (h : s.InControl) (f : Frame) : (s.takeFrame f).InControl := by
  unfold Station.takeFrame
  split
  · exact h
  · next hon =>
    have hne : s.ctl.state ≠ .halted := by simpa [Station.receiverOn] using hon
    split
    · next g hg =>
      unfold Station.ownFrame at hg
      split at hg
      · cases hg
      · next e es hq =>
        split at hg
        · next he =>
          obtain ⟨hown, hj⟩ := h.takeOwn hq he
          exact (applyFrame_controlFrame _ true g).keeps_of_joined hj hown
        · cases hg
    · split
      · next hr => exact (h.frameOver hr).takeOther hne (by simp [Station.frameOver]) f
      · exact h

/-! ## Failed attempts -/

theorem InControl.countFailure (h : s.InControl) (hd : s.link.drive = .released ∨ s.link.drive = .breaks) :
    s.countFailure.InControl := by
  unfold Station.countFailure
  split
  · exact h
  · split
    · next hin =>
      refine InControl.enterMute ?_ hin hd
      exact h
    · exact h

/-- After the failed attempt of a head in flight, which now waits or has left, nothing is in flight (R36, R37). -/
theorem InControl.failHead (h : s.InControl) {e : TxEntry} {es : List TxEntry} (hq : s.link.txq = e :: es)
    (he : e.inFlight = true) {d : LinkDrive} (hd : d = .released ∨ d = .breaks) (ev : List EventRecord) :
    (({ s with link.drive := d, events := ev } : Station).failHead e).InControl := by
  obtain ⟨hline, hctl, -, hval⟩ := h
  obtain ⟨hhead, hfl, -, hi, -, -⟩ := (lineConsistent_iff s).mp hline
  obtain ⟨hin, hr⟩ := hfl (by rw [hq]; exact he)
  have hj : s.Joined := joined_of_inService hin
  have key : ∀ (q : List TxEntry) (ag : List Entry) (ev' : List EventRecord), (∀ x ∈ q, x.inFlight = false) →
      ({ s with link.drive := d, link.txq := q, agenda := ag, events := ev' } : Station).InControl := by
    intro q ag ev' hw
    exact ⟨lineConsistent_of_allWaiting hw (by rcases hd with rfl | rfl <;> simp) (fun _ => hr)
      (fun hst => absurd hst hj.1) (fun _ => hd), hctl, Joined.emptyOutOfService hj, hval⟩
  unfold Station.failHead
  split
  · refine InControl.countFailure (key _ s.agenda ev ?_) hd
    rintro x (_ | ⟨_, hx⟩)
    · rfl
    · exact hhead x hx
  · obtain ⟨ag, ev', heq⟩ := Station.handBack_frame false
      (({ s with link.drive := d, link.txq := s.link.txq.tail, events := ev } : Station).addRecord
        (frameFields .sendFailed s.settings.stationNumber e.payload)) e
    have hdrop : ({ s with link.drive := d, events := ev } : Station).dropHead e =
        { s with link.drive := d, link.txq := s.link.txq.tail, agenda := ag, events := ev' } := heq
    rw [hdrop]
    exact InControl.countFailure (key _ ag ev' hhead) hd

theorem InControl.attemptFails (h : s.InControl) : s.attemptFails.InControl := by
  unfold Station.attemptFails
  split
  · exact h
  · next hq =>
    split
    · next he => exact h.failHead hq he (.inl rfl) s.events
    · exact h

theorem InControl.findBitClash (h : s.InControl) : s.findBitClash.InControl := by
  unfold Station.findBitClash
  split
  · exact h
  · next hq =>
    split
    · next he => exact h.failHead hq he (.inr rfl) _
    · exact h

/-! ## The line -/

theorem InControl.seeStartBit (h : s.InControl) : s.seeStartBit.InControl := by
  unfold Station.seeStartBit
  split
  · next hon =>
    obtain ⟨hline, hctl, hempty, hval⟩ := h
    obtain ⟨hhead, -, -, hi, -, -⟩ := (lineConsistent_iff s).mp hline
    simp only [Bool.and_eq_true] at hon
    exact ⟨lineConsistent_of_allWaiting (allWaiting_of_headOnly hhead (hi hon.2).2) (fun h => (nomatch h))
      (fun h => (nomatch h)) (fun _ => rfl) (fun _ => .inl rfl), hctl, hempty, hval⟩
  · exact h

theorem InControl.seeIdleGap (h : s.InControl) : s.seeIdleGap.InControl := by
  unfold Station.seeIdleGap
  split
  · next hon =>
    obtain ⟨hline, hctl, hempty, hval⟩ := h
    obtain ⟨hhead, -⟩ := (lineConsistent_iff s).mp hline
    simp only [Bool.and_eq_true, Bool.not_eq_true', headInFlight_eq] at hon
    exact ⟨lineConsistent_of_allWaiting (allWaiting_of_headOnly hhead hon.2) (fun h => (nomatch h))
      (fun _ => hon.1.2) (fun _ => rfl) (fun _ => .inl rfl), hctl, hempty, hval⟩
  · exact h

theorem InControl.startFrame (h : s.InControl) : s.startFrame.InControl := by
  unfold Station.startFrame
  split
  · next hon =>
    obtain ⟨hline, hctl, -, hval⟩ := h
    obtain ⟨hhead, -⟩ := (lineConsistent_iff s).mp hline
    simp only [Bool.and_eq_true] at hon
    obtain ⟨⟨hin, -⟩, hne⟩ := hon
    have hj : s.Joined := joined_of_inService hin
    refine ⟨?_, hctl, Joined.emptyOutOfService hj, hval⟩
    rw [lineConsistent_iff]
    cases hq : s.link.txq with
    | nil => rw [hq] at hne; cases hne
    | cons e es =>
      rw [hq] at hhead
      refine ⟨hhead, fun _ => ⟨hin, rfl⟩, iff_of_true rfl rfl, fun h => (nomatch h), fun hst => absurd hst hj.1,
        fun hst => ?_⟩
      have hst : s.ctl.state = .mute := hst
      rw [hst] at hin
      cases hin
  · exact h

theorem InControl.loseArbitration (h : s.InControl) : s.loseArbitration.InControl := by
  unfold Station.loseArbitration
  split
  · next hf =>
    rw [headInFlight_eq] at hf
    obtain ⟨hline, hctl, -, hval⟩ := h
    obtain ⟨hhead, hfl, -, hi, -, -⟩ := (lineConsistent_iff s).mp hline
    have hj : s.Joined := joined_of_inService (hfl hf).1
    have hidle : s.link.idle ≠ true := fun h => by rw [(hi h).2] at hf; cases hf
    refine ⟨lineConsistent_of_allWaiting ?_ (fun h => (nomatch h)) (fun h => absurd h hidle) (fun _ => rfl)
      (fun _ => .inl rfl), hctl, Joined.emptyOutOfService hj, hval⟩
    refine allWaiting_of_headOnly ?_ ?_
    · show HeadOnly (setHeadFlight false s.link.txq)
      cases hq : s.link.txq with
      | nil => exact fun _ hx => (nomatch hx)
      | cons e es => rw [hq] at hhead; exact hhead
    · show Machine.headFlight (setHeadFlight false s.link.txq) = false
      cases s.link.txq <;> rfl
  · exact h

/-- A run of good frames that ends is 0, which every state allows. -/
theorem ControlConsistent.endRun (h : s.ControlConsistent) :
    ({ s with link.goodRun := 0 } : Station).ControlConsistent := by
  obtain ⟨hre, hsus, hset, hset', hjoin, hmark, -⟩ := h
  exact ⟨hre, hsus, hset, hset', hjoin, hmark, fun h => absurd rfl h⟩

theorem InControl.judgeLevels (h : s.InControl) (levels : List Bool) : (s.judgeLevels levels).InControl := by
  unfold Station.judgeLevels
  split
  · next hon =>
    simp only [Bool.and_eq_true] at hon
    have hne : s.ctl.state ≠ .halted := by simpa [Station.receiverOn] using hon.1
    obtain ⟨hline, hctl, hempty, hval⟩ := h
    split
    · next r _ _ =>
      refine ⟨lineConsistent_of_allWaiting (hline.allWaiting (hline.not_frame_of_receiving hon.2)) ?_ (fun _ => rfl)
        (fun hst => absurd hst hne) (fun hst => .inl (if_pos hst)), hctl.endRun, hempty, hval⟩
      show (if s.ctl.state = .mute then LinkDrive.released else r.refusal) ≠ .frame
      split
      · decide
      · cases r <;> decide
    · exact ⟨hline, hctl, hempty, hval⟩
    · exact ⟨hline, hctl, hempty, hval⟩
  · exact h

theorem InControl.frameRejected (h : s.InControl) : s.frameRejected.InControl := by
  unfold Station.frameRejected
  split
  · obtain ⟨hline, hctl, hempty, hval⟩ := h
    refine ⟨?_, hctl.endRun, hempty, hval⟩
    obtain ⟨hhead, hfl, hd, hi, hh, hm⟩ := hline
    exact ⟨hhead, fun hf => ⟨(hfl hf).1, rfl⟩, hd, fun hid => ⟨rfl, (hi hid).2⟩, hh, hm⟩
  · exact h

/-! ## Steps -/

theorem InControl.handle (h : s.InControl) (r : StepReceiver) : (r.handle s).InControl := by
  cases r with
  | track => exact (removeOldest_controlFrame _ s).keeps (fun _ => TablesEmpty.horizonRemoval) h
  | agenda =>
    show s.matchStep.InControl
    unfold Station.matchStep
    split
    · exact s.takeMatch_controlFrame.keeps (fun _ => TablesEmpty.takeMatch) h
    · exact h
  | control => exact h.settleStep

theorem InControl.forwardStep (h : s.InControl) : s.forwardStep.InControl := by
  unfold Station.forwardStep
  refine Station.inTieOrder_induct (fun _ _ ht => ht) (fun r _ _ ht => ht.handle r) ?_
  exact h

theorem InControl.lateSweep (h : s.InControl) : s.lateSweep.InControl :=
  s.lateSweep_controlFrame.keeps (fun _ => TablesEmpty.lateSweep) h

theorem InControl.count (h : s.InControl) (d : Direction) : (s.count d).InControl := by
  unfold Station.count
  split
  · split
    · refine InControl.forwardStep ?_
      exact h
    · exact h
  · split
    · refine InControl.lateSweep ?_
      exact h
    · exact h

theorem InControl.encoderChange (h : s.InControl) (new : EncLevels) : (s.encoderChange new).InControl := by
  unfold Station.encoderChange
  split
  · exact h
  · refine InControl.count ?_ _
    exact h

/-! ## The queue's other sources -/

theorem InControl.enqueue (h : s.InControl) (hin : s.ctl.state.inService = true) (p : Payload) (o : TxOrigin) :
    (s.enqueue p o).InControl := by
  have hf := s.enqueue_flightKept p o
  obtain ⟨q, ev, heq⟩ := s.enqueue_frame p o
  rw [heq] at hf ⊢
  exact ControlFrame.keeps_of_joined ⟨rfl, rfl, rfl, rfl, rfl, hf⟩ (joined_of_inService hin) h

theorem InControl.makeSighting (h : s.InControl) (hin : s.ctl.state.inService = true) (pos : Pos) (lane : BitVec 2)
    (cls : BitVec 4) : (s.makeSighting pos lane cls).InControl :=
  InControl.enqueue (s := { s with sense.seq := s.sense.seq + 1 }) h hin _ _

theorem sensorEdge_flightKept (s : Station) (n : Fin 4) : FlightKept s (s.sensorEdge n) := by
  unfold Station.sensorEdge
  split
  case h_1 | h_2 | h_6 => exact .refl s
  all_goals exact s.takeEdge_flightKept n

theorem sensorEdge_of_not_joined (h : ¬ s.Joined) (n : Fin 4) : s.sensorEdge n = s := by
  unfold Station.sensorEdge
  rcases not_joined_iff.mp h with hst | hst <;> rw [hst]

/-- A sensor read takes no edge before the station has joined (R68). -/
theorem InControl.sensorRead (h : s.InControl) (n : Fin 4) (level : Bool) : (s.sensorRead n level).InControl := by
  unfold Station.sensorRead
  split
  · exact h
  · split
    · have hread : (s.setSensor n { s.sensor n with level := level }).InControl := h
      have hf := (s.setSensor n { s.sensor n with level := level }).sensorEdge_flightKept n
      have hout := sensorEdge_of_not_joined (s := s.setSensor n { s.sensor n with level := level }) (n := n)
      obtain ⟨se, q, ev, heq⟩ := (s.setSensor n { s.sensor n with level := level }).sensorEdge_frame n
      refine ControlFrame.keeps ?_ (fun hj he => by rw [hout hj]; exact he) hread
      rw [heq] at hf ⊢
      exact ⟨rfl, rfl, rfl, rfl, rfl, hf⟩
    · exact h

/-! ## Timers -/

theorem ControlConsistent.inService_of_mark (h : s.ControlConsistent) (hm : s.link.mark ≠ .stopped) :
    s.ctl.state.inService = true := by
  obtain ⟨-, -, -, -, -, hmark, -⟩ := h
  exact (hmark.mp hm).1

theorem InControl.startMark (h : s.InControl) (hin : s.ctl.state.inService = true) : s.startMark.InControl := by
  obtain ⟨hline, hctl, hempty, hval⟩ := h
  obtain ⟨hre, hsus, hset, hjoin, -, hgood⟩ := (controlConsistent_iff_of_inService hin).mp hctl
  refine ⟨hline, (controlConsistent_iff_of_inService (s := s.startMark) hin).mpr ?_, hempty, hval⟩
  exact ⟨hre, hsus, hset, hjoin, by rw [startMark_link_mark]; exact fullMark_ne_stopped_iff _, hgood⟩

theorem InControl.markExpires (h : s.InControl) : s.markExpires.InControl := by
  unfold Station.markExpires
  split
  · exact h
  · next hm =>
    have hin := h.2.1.inService_of_mark hm
    split
    · exact h
    · split
      · refine InControl.startMark ?_ hin
        exact ControlFrame.keeps_of_joined (t := s.pushTx .mark .link)
          ⟨rfl, rfl, rfl, rfl, rfl, KeepsFlight.append_waiting _ rfl⟩ (joined_of_inService hin) h
      · exact h.startMark hin

theorem InControl.joinExpires (h : s.InControl) : s.joinExpires.InControl := by
  unfold Station.joinExpires
  split
  · next hst =>
    obtain ⟨hline, hctl, -, hval⟩ := h
    exact inControl_enterSettling hst hline hctl hval _
  · exact h

/-- A period of the timebase stops no timer and starts none. -/
theorem InControl.tick (h : s.InControl) : s.tick.InControl := by
  obtain ⟨hline, ⟨hre, hsus, hset, hset', hjoin, hmark, hgood⟩, hempty, hval⟩ := h
  refine ⟨hline, ⟨hre, hsus, hset, hset', ?_, ?_, hgood⟩, hempty, hval⟩
  · exact (not_congr (Timer.tick_eq_stopped_iff s.ctl.join)).trans hjoin
  · exact (not_congr (Timer.tick_eq_stopped_iff s.link.mark)).trans hmark

/-! ## START, STOP and device reset -/

theorem InControl.accept (h : s.InControl) (hst : s.ctl.state = .halted) (hv : s.validate = none) :
    s.accept.InControl := by
  obtain ⟨hline, hctl, hempty, -⟩ := h
  have hnj : ¬ s.Joined := fun hj => hj.1 hst
  obtain ⟨hre, hsus, hset, -, hmark, hgood⟩ := (controlConsistent_iff_of_not_joined hnj).mp hctl
  have hq := hline.allWaiting (hline.not_frame_of_not_inService (by rw [hst]; rfl))
  refine ⟨lineConsistent_of_allWaiting hq (by simp [Station.accept]) (fun _ => rfl) (fun _ => rfl) (fun _ => .inl rfl),
    ?_, fun _ => hempty (.inl hst), .inr ((validate_of_settings rfl).trans hv)⟩
  refine (controlConsistent_iff_of_not_joined (s := s.accept) fun hj => hj.2 rfl).mpr ?_
  exact ⟨hre, hsus, hset, by simp [Station.accept], hmark, hgood⟩

/-- A HALTED station with everything empty, absent and stopped. -/
theorem inControl_of_cleared (hst : s.ctl = { state := .halted, resume := none, join := .stopped, settleStart := none })
    (hlink : s.link = { txq := [], fails := 0, mark := .stopped, goodRun := 0, idle := false, receiving := false,
                        drive := .released, ownTaken := false })
    (hsus : s.pos.suspect = none) (he : s.TablesEmpty) : s.InControl := by
  have hnj : ¬ s.Joined := fun hj => hj.1 (by rw [hst])
  refine ⟨lineConsistent_of_allWaiting ?_ ?_ ?_ ?_ ?_, (controlConsistent_iff_of_not_joined hnj).mpr ?_, fun _ => he,
    .inl (by rw [hst])⟩
  · unfold AllWaiting
    rw [hlink]
    exact fun _ hx => (nomatch hx)
  all_goals simp [hst, hlink, hsus]

/-! ## Configuration writes -/

theorem InControl.takeItem (h : s.InControl) {i : ConfigItem} {x : Word}
    (hi : i.itemClass = .locked → s.ctl.state = .halted) (ht : s.takeItem i x = some t) : t.InControl := by
  obtain ⟨⟨rf, sb, ch, ev, k, heq⟩, hset⟩ := Station.takeItem_frame ht
  obtain ⟨hline, hctl, hempty, hval⟩ := h
  rw [heq]
  by_cases hl : i.itemClass = .locked
  · have hst := hi hl
    have hnj : ¬ s.Joined := fun hj => hj.1 hst
    refine ⟨hline, ?_, hempty, .inl hst⟩
    refine (controlConsistent_iff_of_not_joined ?_).mpr ((controlConsistent_iff_of_not_joined hnj).mp hctl)
    exact hnj
  · obtain ⟨v, hv⟩ := hset hl
    rw [hv]
    exact ⟨hline, hctl, hempty, hval⟩

end Station

/-! ## Every step -/

theorem inControl_keptByBlocks : KeptByBlocks Station.InControl where
  ties _ _ h := h
  port _ _ h := h
  events _ _ h := h
  resetAt _ _ := Station.inControl_of_cleared rfl rfl rfl ⟨rfl, rfl, rfl, rfl, rfl⟩
  tick _ h := h.tick
  encoderChange _ new h := h.encoderChange new
  seeStartBit _ h := h.seeStartBit
  seeIdleGap _ h := h.seeIdleGap
  startFrame _ h := h.startFrame
  loseArbitration _ h := h.loseArbitration
  findBitClash _ h := h.findBitClash
  attemptFails _ h := h.attemptFails
  judgeLevels _ levels h := h.judgeLevels levels
  frameRejected _ h := h.frameRejected
  takeFrame _ f h := h.takeFrame f
  markExpires _ h := h.markExpires
  joinExpires _ h := h.joinExpires
  sensorRead _ n level h := h.sensorRead n level
  auxRead s n level h := by
    obtain ⟨a, ch, ev, k, heq⟩ := s.auxRead_frame n level
    rw [heq]
    exact h
  delayExpires s c h := by
    obtain ⟨ch, heq⟩ := s.delayExpires_frame c
    rw [heq]
    exact h
  highExpires s c h := by
    obtain ⟨ch, ev, heq⟩ := s.highExpires_frame c
    rw [heq]
    exact h
  lowExpires s c h := by
    obtain ⟨ch, heq⟩ := s.lowExpires_frame c
    rw [heq]
    exact h
  holdCapExpires s c h := by
    obtain ⟨ch, ev, heq⟩ := s.holdCapExpires_frame c
    rw [heq]
    exact h
  accept _ hst hv h := h.accept hst hv
  stop _ _ := Station.inControl_of_cleared rfl rfl rfl ⟨rfl, rfl, rfl, rfl, rfl⟩
  resume _ hst h := h.unmute hst .resume
  makeSighting _ pos lane cls hin h := h.makeSighting hin pos lane cls
  enqueueHost _ p hin h := h.enqueue hin p .host
  removeItem s tag hf h := by
    refine (s.removeItem_controlFrame tag).keeps (fun _ he => ?_) h
    unfold Station.findItem at hf
    rw [he.1] at hf
    cases hf
  fireRequest s c sl src item h := by
    obtain ⟨ch, ev, heq⟩ := s.fireRequest_frame c sl src item
    rw [heq]
    exact h
  setCommit _ _ _ h := h
  takeItem _ _ _ _ hi ht h := h.takeItem hi ht

/-- Settles O56, block by block: operations that leave station control change the queue by waiting entries alone, and
each change of the station state finds what is present where the state it leaves has it. -/
theorem everyStepKeepsStationControl : Obligations.EveryStepKeepsStationControl :=
  inControl_keptByBlocks.keptByEveryStep

end Sys2Proof.Machine

/-! PROOF. The line position: what starts and ends a frame on the line, the join, the skew check and the resolution of a
drift. -/

namespace Sys2Proof.Machine

/-- A command's outcome is known once its effect on the station is. -/
theorem exec_of_effect {c : Instr} {s : State} {t : Station} (h : effectOf c s.toStation = t) :
    exec c s = .next { s with toStation := t } := by
  rw [exec_eq_effectOf, h]

/-- A command that leaves the station leaves the machine. -/
theorem exec_of_effect_self {c : Instr} {s : State} (h : effectOf c s.toStation = s.toStation) :
    exec c s = .next s := exec_of_effect h

namespace Station

variable {s : Station}

/-! ## The line -/

theorem seeStartBit_of (h : s.receiverOn = true ∧ s.link.idle = true) : s.seeStartBit =
    { s with pos.capture := s.pos.count, link.idle := false, link.receiving := true, link.drive := .released } := by
  simp [Station.seeStartBit, h]

theorem seeStartBit_of_not (h : ¬ (s.receiverOn = true ∧ s.link.idle = true)) : s.seeStartBit = s :=
  if_neg (by rwa [Bool.and_eq_true])

theorem seeIdleGap_of (h : s.receiverOn = true ∧ s.link.receiving = false ∧ s.headInFlight = false) :
    s.seeIdleGap = { s with link.idle := true, link.drive := .released, link.ownTaken := false } := by
  simp [Station.seeIdleGap, h]

theorem seeIdleGap_of_not (h : ¬ (s.receiverOn = true ∧ s.link.receiving = false ∧ s.headInFlight = false)) :
    s.seeIdleGap = s :=
  if_neg (by rwa [Bool.and_eq_true, Bool.and_eq_true, Bool.not_eq_true', Bool.not_eq_true', and_assoc])

theorem startFrame_of {e : TxEntry} {es : List TxEntry} (hq : s.link.txq = e :: es)
    (hin : s.ctl.state.inService = true) (hi : s.link.idle = true) : s.startFrame =
      { s with pos.capture := s.pos.count, link.txq := { e with inFlight := true } :: es, link.idle := false,
               link.receiving := false, link.drive := .frame } := by
  simp [Station.startFrame, hin, hi, hq, setHeadFlight]

theorem startFrame_of_not (h : s.link.txq = [] ∨ s.link.idle = false ∨ s.ctl.state.inService = false) :
    s.startFrame = s := by
  unfold Station.startFrame
  rcases h with h | h | h <;> simp [h]

theorem loseArbitration_of {e : TxEntry} {es : List TxEntry} (hq : s.link.txq = e :: es) (he : e.inFlight = true) :
    s.loseArbitration =
      { s with link.txq := { e with inFlight := false } :: es, link.receiving := true, link.drive := .released } := by
  simp [Station.loseArbitration, Station.headInFlight, hq, he, setHeadFlight]

theorem loseArbitration_of_not (h : s.headInFlight = false) : s.loseArbitration = s := by
  simp [Station.loseArbitration, h]

end Station

/-- Settles O13: each of the four commands by its guard. -/
theorem lineEventsBeginAndYield : Obligations.LineEventsBeginAndYield := by
  intro s
  refine ⟨?_, ?_, fun e es hq hst hi => ?_, fun h => ?_, fun e es hq he => ?_, fun h => ?_⟩
  · split
    · next h => exact exec_of_effect (Station.seeStartBit_of h)
    · next h => exact exec_of_effect_self (Station.seeStartBit_of_not h)
  · split
    · next h => exact exec_of_effect (Station.seeIdleGap_of h)
    · next h => exact exec_of_effect_self (Station.seeIdleGap_of_not h)
  · exact exec_of_effect (Station.startFrame_of hq ((StationState.inService_iff _).mpr hst) hi)
  · refine exec_of_effect_self (Station.startFrame_of_not (h.imp_right (Or.imp_right fun hst => ?_)))
    rw [Bool.eq_false_iff, ne_eq, StationState.inService_iff, not_or]
    exact hst
  · exact exec_of_effect (Station.loseArbitration_of hq he)
  · exact exec_of_effect_self (Station.loseArbitration_of_not h)

namespace Station

variable {s : Station}

/-! ## Skews and returns -/

theorem withinTolerance_iff (k : Pos) (t : BitVec 8) : withinTolerance k t = true ↔ k.toInt.natAbs ≤ t.toNat := by
  simp [withinTolerance]

theorem withinTolerance_of_lt {k : Pos} {t : BitVec 8} (h : t.toNat < k.toInt.natAbs) : withinTolerance k t = false := by
  simpa [withinTolerance] using h

theorem startMark_eq (s : Station) : s.startMark = { s with link.mark := s.fullMark } := by
  have h := s.startMark_link_mark
  unfold Station.startMark at h ⊢
  rw [← h]

theorem resolveDrift_eq {r : ResumeState} (hr : s.ctl.resume = some r) : s.resolveDrift =
    { s with pos.suspect := none, ctl.resume := none, ctl.state := r.toState, link.mark := s.fullMark,
             events := s.eventsWith (stateChange s.ctl.state r.toState .resolved) } := by
  unfold Station.resolveDrift
  rw [returnToResume_of (s := { s with pos.suspect := none }) hr, startMark_eq]
  rfl

theorem judgePosition_of_drifted {u : Suspect} (hst : s.ctl.state = .drifted) (hu : s.pos.suspect = some u)
    (sender : Station5) (k : Pos) : s.judgePosition sender k =
      if sender = u.station then s.suspectSpeaks sender k else s.thirdOpinion u sender k := by
  unfold Station.judgePosition Station.resolveSkew
  rw [hst, hu]

/-- The return of a DRIFTED station that has just recorded something. -/
theorem addRecord_resolveDrift {r : ResumeState} (hst : s.ctl.state = .drifted) (hr : s.ctl.resume = some r)
    (f : EventFields) : (s.addRecord f).resolveDrift =
      { s with pos.suspect := none, ctl.resume := none, ctl.state := r.toState, link.mark := s.fullMark,
               events := pushEvent
                 { fields := stateChange .drifted r.toState .resolved, pos := s.pos.count, lostAfter := false }
                 (s.eventsWith f) } := by
  rw [← hst]
  exact resolveDrift_eq (s := s.addRecord f) hr

@[simp] theorem align_pos_count (s : Station) (k : Pos) : (s.align k).pos.count = s.pos.count + k := by
  obtain ⟨q, ch, ev, heq⟩ := s.align_frame k
  rw [heq]
  rfl

theorem align_ctl_resume (s : Station) (k : Pos) : (s.align k).ctl.resume = s.ctl.resume := by
  rw [(s.align_controlFrame k).ctl]

theorem align_fullMark (s : Station) (k : Pos) : (s.align k).fullMark = s.fullMark := by
  unfold Station.fullMark
  rw [(s.align_controlFrame k).settings]

end Station

/-- Settles O25: the suspect's cases and those of a third station, each by the tolerance. -/
theorem driftIsResolvedByCases : Obligations.DriftIsResolvedByCases := by
  intro s u r sender k hst hu hr
  rw [Station.judgePosition_of_drifted hst hu]
  refine ⟨fun hs hk => ?_, fun hs hk => ?_, fun hs hk => ?_, fun hs hk hd => ?_, fun hs hk hd => ?_⟩
  · rw [if_pos hs, Station.suspectSpeaks, if_pos ((Station.withinTolerance_iff _ _).mpr hk),
      Station.resolveDrift_eq hr, hst]
  · rw [if_pos hs, Station.suspectSpeaks, Station.withinTolerance_of_lt hk, hs]
    rfl
  · rw [if_neg hs, Station.thirdOpinion, if_pos ((Station.withinTolerance_iff _ _).mpr hk),
      Station.addRecord_resolveDrift hst hr]
  · rw [if_neg hs, Station.thirdOpinion, Station.withinTolerance_of_lt hk, if_neg Bool.false_ne_true,
      if_pos ((Station.withinTolerance_iff _ _).mpr hd),
      Station.addRecord_resolveDrift ((s.align_controlFrame k).state.trans hst) ((s.align_ctl_resume k).trans hr),
      Station.align_fullMark, Station.align_pos_count]
  · rw [if_neg hs, Station.thirdOpinion, Station.withinTolerance_of_lt hk, Station.withinTolerance_of_lt hd]
    rfl

namespace Station

variable {s : Station}

/-! ## The take of a MARK from another station -/

theorem takeFrame_of_decoding (h : s.Decoding) (f : Frame) : s.takeFrame f = s.frameOver.takeOther f := by
  obtain ⟨hon, hfl, hr⟩ := h
  have hown : s.ownFrame = none := by
    unfold Station.ownFrame
    unfold Station.headInFlight at hfl
    split
    · rfl
    · next hq => rw [hq] at hfl; simpa using hfl
  unfold Station.takeFrame
  rw [hon, hown, hr]
  rfl

theorem noteDuplicate_eq (s : Station) (f : Frame) : s.noteDuplicate f = { s with events := s.notedEvents f } := by
  unfold Station.noteDuplicate Station.notedEvents
  split <;> rfl

theorem countGoodFrame_of_not_mute (h : s.ctl.state ≠ .mute) : s.countGoodFrame = s := if_pos h

theorem applyFrame_of_mark {f : Frame} (h : f.payload = .mark) (own : Bool) : s.applyFrame own f = s.purge f.stamp := by
  unfold Station.applyFrame Station.applyKind
  rw [h]

/-- A MARK from another station, outside MUTE, is the position step between the DUP_STATION record and the purge
(R34, R44). -/
theorem takeFrame_of_mark {f : Frame} (h : s.Decoding) (hm : s.ctl.state ≠ .mute) (hf : f.payload = .mark) :
    s.takeFrame f = (({ s.frameOver with events := s.notedEvents f } : Station).judgePosition f.sender
      (f.stamp - s.pos.capture)).purge f.stamp := by
  rw [takeFrame_of_decoding h, Station.takeOther, applyFrame_of_mark hf, noteDuplicate_eq, countGoodFrame_of_not_mute]
  · rfl
  · exact hm

/-! ## The join and the skew check -/

theorem enterDrifted_eq (s : Station) (o : Station5) (k : Pos) : s.enterDrifted o k =
    { s with link.mark := .stopped, pos.suspect := some { station := o, skew := k }, ctl.state := .drifted,
             ctl.resume := s.ctl.state.toResume,
             events := pushEvent { fields := stateChange s.ctl.state .drifted .skew, pos := s.pos.count, lostAfter := false }
               (s.eventsWith { kind := .skew, station := some o, value := some k.toInt }) } := rfl

theorem checkSkew_within {k : Pos} (h : k.toInt.natAbs ≤ s.settings.skewTolerance.toNat) (o : Station5) :
    s.checkSkew o k = s := if_pos ((withinTolerance_iff _ _).mpr h)

theorem checkSkew_outside {k : Pos} (h : s.settings.skewTolerance.toNat < k.toInt.natAbs) (o : Station5) :
    s.checkSkew o k = s.enterDrifted o k := by
  rw [Station.checkSkew, withinTolerance_of_lt h, if_neg Bool.false_ne_true]

theorem judgePosition_of_inService (h : s.ctl.state = .settling ∨ s.ctl.state = .active) (o : Station5) (k : Pos) :
    s.judgePosition o k = s.checkSkew o k := by
  unfold Station.judgePosition
  rcases h with h | h <;> rw [h]

theorem loadMatch_of_empty (h : s.agenda = []) : s.loadMatch = { s with pos.matchReg := none } := by
  have hm : s.agenda.head?.map Entry.fire = none := by rw [h]; rfl
  unfold Station.loadMatch
  rw [hm]

theorem align_of_empty (h : s.agenda = []) (k : Pos) : s.align k = { s.moveCount k with pos.matchReg := none } := by
  unfold Station.align
  rw [lateSweep_of_empty (s := s.moveCount k) h, loadMatch_of_empty (s := s.moveCount k) h]

theorem judgePosition_of_joining (h : s.ctl.state = .joining) (o : Station5) (k : Pos) :
    s.judgePosition o k = s.joinAt o k := by
  unfold Station.judgePosition
  rw [h]

theorem joinAt_eq (ha : s.agenda = []) (o : Station5) (k : Pos) : s.joinAt o k =
    { s with
      pos.count := s.pos.count + k
      pos.sub := 0
      pos.matchReg := none
      link.txq := s.link.txq.map (TxEntry.align k)
      link.mark := s.fullMark
      sense.inputs := s.sense.inputs.map (fun i => { i with last := i.last.map (· + k) })
      ctl.state := .settling
      ctl.join := .stopped
      ctl.settleStart := some (s.pos.count + k)
      events := pushEvent { fields := stateChange s.ctl.state .settling .joinFrame, pos := s.pos.count + k,
                            lostAfter := false }
        (pushEvent { fields := { kind := .aligned, station := some o, value := some k.toInt }, pos := s.pos.count + k,
                     lostAfter := false } s.events) } := by
  unfold Station.joinAt Station.enterSettling
  rw [align_of_empty ha, startMark_eq]
  rfl

end Station

/-- Settles O24: within tolerance the check changes nothing, outside it the station drifts, and the purge comes after. -/
theorem theSkewCheckEntersDrifted : Obligations.TheSkewCheckEntersDrifted := by
  intro s f k hdec hst hf hk
  have hne : s.ctl.state ≠ .mute := by rcases hst with h | h <;> rw [h] <;> decide
  have htake := Station.takeFrame_of_mark hdec hne hf
  rw [Station.judgePosition_of_inService (s := { s.frameOver with events := s.notedEvents f }) hst, ← hk] at htake
  refine ⟨fun hle => ?_, fun hlt => ?_⟩
  · rw [Station.checkSkew_within (s := { s.frameOver with events := s.notedEvents f }) hle] at htake
    exact exec_of_effect htake
  · rw [Station.checkSkew_outside (s := { s.frameOver with events := s.notedEvents f }) hlt,
      Station.enterDrifted_eq] at htake
    have hre : s.ctl.state.toResume = if s.ctl.state = .active then some .active else some .settling := by
      rcases hst with h | h <;> rw [h] <;> rfl
    rw [← hre]
    exact exec_of_effect htake

theorem TxEntry.align_of_sight {e : TxEntry} {q : Seq8} {p : Pos} {l : BitVec 2} {c : BitVec 4}
    (h : e.payload = .sight q p l c) (hw : e.inFlight = false) (k : Pos) :
    e.align k = { e with payload := .sight q (p + k) l c } := by
  unfold TxEntry.align
  rw [h]
  simp [hw]

theorem TxEntry.align_of_not {e : TxEntry} (h : e.inFlight = true ∨ e.payload.kind ≠ .sight) (k : Pos) :
    e.align k = e := by
  unfold TxEntry.align
  split
  · next hp =>
    rw [hp] at h
    exact if_pos (h.resolve_right fun hk => hk rfl)
  all_goals rfl

/-- Settles O23: the alignment of an empty agenda, ALIGNED, and the entry to SETTLING, with the purge after it. -/
theorem theFirstTakeAligns : Obligations.TheFirstTakeAligns := by
  refine ⟨fun e k => ⟨fun q p l c h hw => TxEntry.align_of_sight h hw k, fun h => TxEntry.align_of_not h k⟩, ?_⟩
  intro s f k hdec hst ha hf hk
  have htake := Station.takeFrame_of_mark hdec (by rw [hst]; decide) hf
  rw [Station.judgePosition_of_joining (s := { s.frameOver with events := s.notedEvents f }) hst,
    Station.joinAt_eq (s := { s.frameOver with events := s.notedEvents f }) ha, ← hk] at htake
  rw [← hst]
  exact exec_of_effect htake

end Sys2Proof.Machine

/-! PROOF. The encoder: counts, what a count leaves, and the steps with their receivers. -/

namespace Sys2Proof.Machine

namespace Station

variable {s : Station} {new : EncLevels}

/-! ## Counts -/

theorem quad4Count_eq_none {ref new : EncLevels} (hf : (ref, new) ∉ forwardCycle) (hr : (ref, new) ∉ reverseCycle) :
    quad4Count ref new = none := by
  have key : ∀ a b c d : Bool, (({ a := a, b := b } : EncLevels), ({ a := c, b := d } : EncLevels)) ∉ forwardCycle →
      (({ a := a, b := b } : EncLevels), ({ a := c, b := d } : EncLevels)) ∉ reverseCycle →
      quad4Count { a := a, b := b } { a := c, b := d } = none := by decide
  exact key _ _ _ _ hf hr

theorem quad1Count_eq_none {ref new : EncLevels} (h : ref.a = true ∨ new.a = false) : quad1Count ref new = none := by
  unfold quad1Count
  rcases h with h | h <;> simp [h]

theorem pulseDirCount_eq_none {old new : EncLevels} (h : old.a = true ∨ new.a = false) :
    pulseDirCount old new = none := by
  unfold pulseDirCount
  rcases h with h | h <;> simp [h]

theorem encoderChange_of_forward (h : s.CountsForward new) : s.encoderChange new =
    ({ s with pins.enc := new, pos.ref := s.refAt new } : Station).count .forward := by
  unfold Station.encoderChange
  rw [countOf_forward h, acceptLevels_eq]

theorem encoderChange_of_reverse (h : s.CountsReverse new) : s.encoderChange new =
    ({ s with pins.enc := new, pos.ref := s.refAt new } : Station).count .reverse := by
  unfold Station.encoderChange
  rw [countOf_reverse h, acceptLevels_eq]

theorem encoderChange_of_none (h : s.countOf new = none) :
    s.encoderChange new = { s with pins.enc := new, pos.ref := s.refAt new } := by
  unfold Station.encoderChange
  rw [h, acceptLevels_eq]

theorem count_forward_of_step (h : s.pos.sub + 1 = s.settings.prescale.counts) :
    s.count .forward = ({ s with pos.dir := .forward, pos.sub := 0 } : Station).forwardStep := if_pos h

theorem count_forward_of_not (h : s.pos.sub + 1 ≠ s.settings.prescale.counts) :
    s.count .forward = { s with pos.dir := .forward, pos.sub := s.pos.sub + 1 } := if_neg h

theorem count_reverse_of_step (h : s.pos.sub = 0) : s.count .reverse =
    ({ s with pos.dir := .reverse, pos.sub := s.settings.prescale.counts - 1 } : Station).reverseStep := if_pos h

theorem count_reverse_of_not (h : s.pos.sub ≠ 0) :
    s.count .reverse = { s with pos.dir := .reverse, pos.sub := s.pos.sub - 1 } := if_neg h

theorem encoderChange_of_forward_not (h : s.CountsForward new) (hsub : s.pos.sub + 1 ≠ s.settings.prescale.counts) :
    s.encoderChange new =
      { s with pins.enc := new, pos.ref := s.refAt new, pos.dir := .forward, pos.sub := s.pos.sub + 1 } := by
  rw [encoderChange_of_forward h]
  exact count_forward_of_not (s := { s with pins.enc := new, pos.ref := s.refAt new }) hsub

theorem encoderChange_of_reverse_not (h : s.CountsReverse new) (hsub : s.pos.sub ≠ 0) : s.encoderChange new =
    { s with pins.enc := new, pos.ref := s.refAt new, pos.dir := .reverse, pos.sub := s.pos.sub - 1 } := by
  rw [encoderChange_of_reverse h]
  exact count_reverse_of_not (s := { s with pins.enc := new, pos.ref := s.refAt new }) hsub

theorem encoderChange_of_forward_step (h : s.CountsForward new) (hsub : s.pos.sub + 1 = s.settings.prescale.counts) :
    s.encoderChange new =
      ({ s with pins.enc := new, pos.ref := s.refAt new, pos.dir := .forward, pos.sub := 0 } : Station).forwardStep := by
  rw [encoderChange_of_forward h]
  exact count_forward_of_step (s := { s with pins.enc := new, pos.ref := s.refAt new }) hsub

theorem encoderChange_of_reverse_step (h : s.CountsReverse new) (hsub : s.pos.sub = 0) : s.encoderChange new =
    ({ s with pins.enc := new, pos.ref := s.refAt new, pos.dir := .reverse,
              pos.sub := s.settings.prescale.counts - 1, pos.count := s.pos.count - 1 } : Station).lateSweep := by
  rw [encoderChange_of_reverse h]
  exact count_reverse_of_step (s := { s with pins.enc := new, pos.ref := s.refAt new }) hsub

/-- Besides the direction, the sub-count and the position, a count changes what a step's receivers can change. -/
theorem count_stepFrame (s : Station) (d : Direction) :
    ∃ dir sub cnt, StepFrame { s with pos.dir := dir, pos.sub := sub, pos.count := cnt } (s.count d) := by
  cases d with
  | forward =>
    by_cases h : s.pos.sub + 1 = s.settings.prescale.counts
    · rw [count_forward_of_step h]
      exact ⟨.forward, 0, s.pos.count + 1, forwardStep_stepFrame { s with pos.dir := .forward, pos.sub := 0 }⟩
    · rw [count_forward_of_not h]
      exact ⟨.forward, s.pos.sub + 1, s.pos.count, .refl _⟩
  | reverse =>
    by_cases h : s.pos.sub = 0
    · rw [count_reverse_of_step h]
      exact ⟨.reverse, s.settings.prescale.counts - 1, s.pos.count - 1,
        reverseStep_stepFrame { s with pos.dir := .reverse, pos.sub := s.settings.prescale.counts - 1 }⟩
    · rw [count_reverse_of_not h]
      exact ⟨.reverse, s.pos.sub - 1, s.pos.count, .refl _⟩

theorem encoderChange_stepFrame (s : Station) (new : EncLevels) : ∃ dir sub cnt, StepFrame
    { s with pins.enc := new, pos.ref := s.refAt new, pos.dir := dir, pos.sub := sub, pos.count := cnt }
    (s.encoderChange new) := by
  unfold Station.encoderChange
  rw [acceptLevels_eq]
  split
  · exact ⟨s.pos.dir, s.pos.sub, s.pos.count, .refl _⟩
  · next d _ => exact count_stepFrame { s with pins.enc := new, pos.ref := s.refAt new } d

theorem countedForward_count (s : Station) : s.CountedForward (s.count .forward) := by
  unfold Station.CountedForward
  by_cases h : s.pos.sub + 1 = s.settings.prescale.counts
  · have hp := (forwardStep_stepFrame { s with pos.dir := .forward, pos.sub := 0 }).pos
    rw [count_forward_of_step h, if_pos h, hp]
    exact ⟨rfl, rfl, rfl⟩
  · rw [count_forward_of_not h, if_neg h]
    exact ⟨rfl, rfl, rfl⟩

theorem countedReverse_count (s : Station) : s.CountedReverse (s.count .reverse) := by
  unfold Station.CountedReverse
  by_cases h : s.pos.sub = 0
  · have hp := (reverseStep_stepFrame
      { s with pos.dir := .reverse, pos.sub := s.settings.prescale.counts - 1 }).pos
    rw [count_reverse_of_step h, if_pos h, hp]
    exact ⟨rfl, rfl, rfl⟩
  · rw [count_reverse_of_not h, if_neg h]
    exact ⟨rfl, rfl, rfl⟩

theorem countedForward_encoderChange (h : s.CountsForward new) : s.CountedForward (s.encoderChange new) := by
  rw [encoderChange_of_forward h]
  exact countedForward_count { s with pins.enc := new, pos.ref := s.refAt new }

theorem countedReverse_encoderChange (h : s.CountsReverse new) : s.CountedReverse (s.encoderChange new) := by
  rw [encoderChange_of_reverse h]
  exact countedReverse_count { s with pins.enc := new, pos.ref := s.refAt new }

/-! ## The encoder modes -/

theorem countsForward_of_quad4 (hm : s.settings.encoderMode = .quad4) (h : (s.pos.ref, new) ∈ forwardCycle) :
    s.CountsForward new := by
  unfold Station.CountsForward
  rw [hm]
  exact h

theorem countsReverse_of_quad4 (hm : s.settings.encoderMode = .quad4) (h : (s.pos.ref, new) ∈ reverseCycle) :
    s.CountsReverse new := by
  unfold Station.CountsReverse
  rw [hm]
  exact h

theorem countsForward_of_quad1 (hm : s.settings.encoderMode = .quad1) (hr : s.pos.ref.a = false)
    (hn : new = { a := true, b := false }) : s.CountsForward new := by
  unfold Station.CountsForward
  rw [hm]
  exact ⟨hr, hn⟩

theorem countsReverse_of_quad1 (hm : s.settings.encoderMode = .quad1) (hr : s.pos.ref.a = false)
    (hn : new = { a := true, b := true }) : s.CountsReverse new := by
  unfold Station.CountsReverse
  rw [hm]
  exact ⟨hr, hn⟩

theorem countsForward_of_pulseDir (hm : s.settings.encoderMode = .pulseDir) (hr : s.pins.enc.a = false)
    (hn : new = { a := true, b := true }) : s.CountsForward new := by
  unfold Station.CountsForward
  rw [hm]
  exact ⟨hr, hn⟩

theorem countsReverse_of_pulseDir (hm : s.settings.encoderMode = .pulseDir) (hr : s.pins.enc.a = false)
    (hn : new = { a := true, b := false }) : s.CountsReverse new := by
  unfold Station.CountsReverse
  rw [hm]
  exact ⟨hr, hn⟩

theorem refAt_of_pulseDir (hm : s.settings.encoderMode = .pulseDir) : s.refAt new = s.pos.ref := if_pos hm

theorem refAt_of_quad (hm : s.settings.encoderMode ≠ .pulseDir) : s.refAt new = new := if_neg hm

theorem encoderChange_of_quad4_none (hm : s.settings.encoderMode = .quad4) (hf : (s.pos.ref, new) ∉ forwardCycle)
    (hr : (s.pos.ref, new) ∉ reverseCycle) : s.encoderChange new = { s with pins.enc := new, pos.ref := new } := by
  have hc : s.countOf new = none := by
    unfold Station.countOf
    rw [hm]
    exact quad4Count_eq_none hf hr
  rw [encoderChange_of_none hc, refAt_of_quad (by rw [hm]; decide)]

theorem encoderChange_of_quad1_none (hm : s.settings.encoderMode = .quad1) (h : s.pos.ref.a = true ∨ new.a = false) :
    s.encoderChange new = { s with pins.enc := new, pos.ref := new } := by
  have hc : s.countOf new = none := by
    unfold Station.countOf
    rw [hm]
    exact quad1Count_eq_none h
  rw [encoderChange_of_none hc, refAt_of_quad (by rw [hm]; decide)]

theorem encoderChange_of_pulseDir_none (hm : s.settings.encoderMode = .pulseDir)
    (h : s.pins.enc.a = true ∨ new.a = false) : s.encoderChange new = { s with pins.enc := new } := by
  have hc : s.countOf new = none := by
    unfold Station.countOf
    rw [hm]
    exact pulseDirCount_eq_none h
  rw [encoderChange_of_none hc, refAt_of_pulseDir hm]

end Station

/-- Settles O7: the mode decides which changes are counts, and a count is the same in every mode. -/
theorem levelChangesMakeCounts : Obligations.LevelChangesMakeCounts := by
  intro s new
  obtain ⟨dir, sub, cnt, hframe⟩ := s.encoderChange_stepFrame new
  refine ⟨{ s with toStation := s.encoderChange new }, exec_eq_effectOf _ _, ?_, ?_, fun hm => ⟨?_, ?_, ?_⟩,
    fun hm => ⟨?_, ?_, ?_⟩, fun hm => ⟨?_, ?_, ?_⟩, ?_, ?_⟩
  · exact congrArg Pins.enc hframe.pins
  · exact congrArg PositionUnit.ref hframe.pos
  · exact fun h => Station.countedForward_encoderChange (Station.countsForward_of_quad4 hm h)
  · exact fun h => Station.countedReverse_encoderChange (Station.countsReverse_of_quad4 hm h)
  · intro hf hr
    rw [Station.encoderChange_of_quad4_none hm hf hr]
  · exact fun hr hn => Station.countedForward_encoderChange (Station.countsForward_of_quad1 hm hr hn)
  · exact fun hr hn => Station.countedReverse_encoderChange (Station.countsReverse_of_quad1 hm hr hn)
  · intro h
    rw [Station.encoderChange_of_quad1_none hm h]
  · exact fun hr hn => Station.countedForward_encoderChange (Station.countsForward_of_pulseDir hm hr hn)
  · exact fun hr hn => Station.countedReverse_encoderChange (Station.countsReverse_of_pulseDir hm hr hn)
  · intro h
    rw [Station.encoderChange_of_pulseDir_none hm h]
  · intro hc hsub
    rw [Station.encoderChange_of_forward_not hc hsub]
  · intro hc hsub
    rw [Station.encoderChange_of_reverse_not hc hsub]

/-- Settles O8: what lies outside the reach of a step's receivers. -/
theorem encoderCountFrame : Obligations.EncoderCountFrame := by
  intro s t new h
  rw [exec_eq_effectOf] at h
  cases h
  obtain ⟨dir, sub, cnt, hframe⟩ := s.encoderChange_stepFrame new
  have haux := congrArg Pins.aux hframe.pins
  have hcapture := congrArg PositionUnit.capture hframe.pos
  have hsuspect := congrArg PositionUnit.suspect hframe.pos
  exact ⟨rfl, haux, hcapture, hsuspect, hframe.sense, hframe.claims, hframe.claimSeq, hframe.port,
    hframe.settings, hframe.link, hframe.join, hframe.state⟩

end Sys2Proof.Machine

/-! PROOF. The receivers of a step: horizon removal, the match, the settle span, and the sweep of late entries. -/

namespace Sys2Proof.Machine

namespace Station

variable {s : Station}

/-! ## Horizon removal -/

theorem beyondHorizon_iff (s : Station) (i : Item) : s.beyondHorizon i = true ↔
    ahead i.sighting s.pos.count = false ∧ s.settings.trackHorizon.toNat < dist s.pos.count i.sighting := by
  simp [Station.beyondHorizon]

theorem concerns_track_iff (s : Station) :
    s.concerns .track = true ↔ ∃ i, s.track.head? = some i ∧ s.beyondHorizon i = true := by
  show s.oldestBeyond = true ↔ _
  unfold Station.oldestBeyond
  cases s.track with
  | nil => simp
  | cons i is => simp

/-- The oldest item leaves the table when its tag is removed. -/
theorem removeItem_head {i : Item} {is : List Item} (h : s.track = i :: is) : (s.removeItem i.tag).track = is := by
  obtain ⟨q, ev, heq⟩ := s.removeItem_frame i.tag
  rw [heq]
  show s.track.eraseP _ = is
  rw [h, List.eraseP_cons_of_pos (by simp)]

theorem removeItem_beyondHorizon (s : Station) (tag : Tag) : (s.removeItem tag).beyondHorizon = s.beyondHorizon := by
  obtain ⟨q, ev, heq⟩ := s.removeItem_frame tag
  rw [heq]
  rfl

theorem removeOldest_eq (n : Nat) (s : Station) (h : s.track.length ≤ n) :
    s.removeOldest n = (s.track.takeWhile s.beyondHorizon).foldl (fun u i => u.removeItem i.tag) s := by
  induction n generalizing s with
  | zero =>
    rw [List.eq_nil_of_length_eq_zero (Nat.le_zero.mp h)]
    rfl
  | succ n ih =>
    unfold Station.removeOldest
    cases ht : s.track with
    | nil => rfl
    | cons i is =>
      rw [List.takeWhile_cons]
      show (if s.beyondHorizon i = true then Station.removeOldest n (s.removeItem i.tag) else s) = _
      cases hb : s.beyondHorizon i with
      | false => rfl
      | true =>
        have hlen : (s.removeItem i.tag).track.length ≤ n := by
          rw [removeItem_head ht]
          rw [ht] at h
          exact Nat.le_of_succ_le_succ h
        show (s.removeItem i.tag).removeOldest n = _
        rw [ih _ hlen, removeItem_head ht, removeItem_beyondHorizon]
        rfl

/-- Horizon removal removes the oldest items, as long as they are beyond the horizon (R89). -/
theorem horizonRemoval_eq (s : Station) :
    s.horizonRemoval = (s.track.takeWhile s.beyondHorizon).foldl (fun u i => u.removeItem i.tag) s :=
  removeOldest_eq _ s le_rfl

/-! ## The settle span -/

theorem concerns_control_iff (s : Station) : s.concerns .control = true ↔ ∃ q, s.ctl.settleStart = some q ∧
    dist s.pos.count q = s.settings.claimHorizon.toNat + 2 * s.settings.skewTolerance.toNat := by
  show s.spanComplete = true ↔ _
  unfold Station.spanComplete Station.settleSpan
  cases s.ctl.settleStart <;> simp

theorem settleStep_of_settling (h : s.concerns .control = true) (hst : s.ctl.state = .settling) : s.settleStep =
    { s with ctl.state := .active, ctl.settleStart := none,
             events := s.eventsWith (stateChange .settling .active .settled) } := by
  unfold Station.settleStep
  rw [show s.spanComplete = true from h, if_neg (by decide), if_pos hst, ← hst]
  rfl

theorem settleStep_of_resume (h : s.concerns .control = true) (hst : s.ctl.state ≠ .settling)
    (hre : s.ctl.resume = some .settling) :
    s.settleStep = { s with ctl.settleStart := none, ctl.resume := some .active } := by
  unfold Station.settleStep
  rw [show s.spanComplete = true from h, if_neg (by decide), if_neg hst, if_pos hre]

/-! ## The match and the sweep -/

theorem concerns_agenda_iff (s : Station) : s.concerns .agenda = true ↔ s.pos.matchReg = some s.pos.count := by
  show s.atMatch = true ↔ _
  simp [Station.atMatch]

theorem matchStep_of_atMatch (h : s.concerns .agenda = true) : s.matchStep = s.takeMatch := if_pos h

/-- The entries at the position leave one after another, each judged whole before the next (R12, R110). -/
theorem takeMatch_eq {u : Station}
    (hu : u = (s.agenda.filter (fun e => e.fire == s.pos.count)).foldl
      (fun v e => (({ v with agenda := v.agenda.erase e }).releaseClaim e).judgeMatched e) s) :
    u.agenda = s.agenda.filter (fun e => e.fire != s.pos.count) ∧
      s.takeMatch = { u with pos.matchReg := u.agenda.head?.map Entry.fire } := by
  subst hu
  refine ⟨?_, rfl⟩
  obtain ⟨q, ch, ev, heq⟩ := leaveFold_frame (fun e t => t.judgeMatched_frame e)
    (s.agenda.filter (fun e => e.fire == s.pos.count)) s
  exact (congrArg Station.agenda heq).trans (erase_foldl_filter _ _)

/-- While entries leave, the position stands still, so that each lateness is measured from one position. -/
theorem leaveFold_late (es : List Entry) (p : Pos) (s : Station) (hp : s.pos.count = p) :
    es.foldl (Station.leaveAgenda fun e t => t.handleLate e.template e.item (dist t.pos.count e.fire)) s =
      es.foldl (fun v e =>
        (({ v with agenda := v.agenda.erase e }).releaseClaim e).handleLate e.template e.item (dist p e.fire)) s := by
  induction es generalizing s with
  | nil => rfl
  | cons e es ih =>
    have hstep : s.leaveAgenda (fun e t => t.handleLate e.template e.item (dist t.pos.count e.fire)) e =
        (({ s with agenda := s.agenda.erase e }).releaseClaim e).handleLate e.template e.item (dist p e.fire) := by
      obtain ⟨q, ev, heq⟩ := releaseClaim_frame { s with agenda := s.agenda.erase e } e
      unfold Station.leaveAgenda
      rw [heq]
      show Station.handleLate _ _ (dist s.pos.count e.fire) _ = _
      rw [hp]
    have hcount : (s.leaveAgenda (fun e t => t.handleLate e.template e.item (dist t.pos.count e.fire)) e).pos.count =
        p := by
      obtain ⟨q, ch, ev, heq⟩ := leaveAgenda_frame
        (handle := fun e t => t.handleLate e.template e.item (dist t.pos.count e.fire))
        (fun e t => t.handleLate_frame _ _ _) s e
      rw [heq]
      exact hp
    rw [List.foldl_cons, List.foldl_cons, ih _ hcount, hstep]

/-- The entries that are no longer ahead are handled as late one after another (R8, R14, R113). -/
theorem lateSweep_eq {u : Station}
    (hu : u = (s.agenda.filter (fun e => !ahead e.fire s.pos.count)).foldl
      (fun v e => (({ v with agenda := v.agenda.erase e }).releaseClaim e).handleLate e.template e.item
        (dist s.pos.count e.fire)) s) :
    u.agenda = s.agenda.filter (fun e => ahead e.fire s.pos.count) ∧
      s.lateSweep = { u with pos.matchReg := u.agenda.head?.map Entry.fire } := by
  have hfold := leaveFold_late (s.agenda.filter (fun e => !ahead e.fire s.pos.count)) s.pos.count s rfl
  rw [← hu] at hfold
  obtain ⟨q, ch, ev, heq⟩ := leaveFold_frame
    (handle := fun e t => t.handleLate e.template e.item (dist t.pos.count e.fire))
    (fun e t => t.handleLate_frame _ _ _) (s.agenda.filter (fun e => !ahead e.fire s.pos.count)) s
  rw [hfold] at heq
  refine ⟨?_, ?_⟩
  · have hag := (congrArg Station.agenda heq).trans (erase_foldl_filter _ _)
    simpa using hag
  · show Station.loadMatch _ = _
    rw [hfold]
    rfl

/-- A sweep that finds no late entry leaves a station whose match register is loaded. -/
theorem lateSweep_of_ahead (hm : s.pos.matchReg = s.agenda.head?.map Entry.fire)
    (ha : ∀ e ∈ s.agenda, ahead e.fire s.pos.count = true) : s.lateSweep = s := by
  have hnone : s.agenda.filter (fun e => !ahead e.fire s.pos.count) = [] :=
    List.filter_eq_nil_iff.mpr fun e he => by rw [ha e he]; decide
  unfold Station.lateSweep Station.leaveAll
  rw [hnone]
  show s.loadMatch = s
  unfold Station.loadMatch
  rw [← hm]

/-! ## Delivery of a forward step -/

/-- The position as it stands reaches the receivers that have something to do at it (R7). -/
def deliver (s : Station) : Station :=
  s.inTieOrder StepReceiver.number StepReceiver.handle ([StepReceiver.track, .agenda, .control].filter s.concerns)

/-- A count that completes the prescale moves the position by one and delivers it. -/
theorem encoderChange_of_forward_deliver {m : Station} {new : EncLevels} (h : s.CountsForward new)
    (hsub : s.pos.sub + 1 = s.settings.prescale.counts)
    (hm : m = { s with pins.enc := new, pos.ref := s.refAt new, pos.dir := .forward, pos.sub := 0,
                       pos.count := s.pos.count + 1 }) : s.encoderChange new = m.deliver := by
  rw [encoderChange_of_forward_step h hsub, hm]
  rfl

/-- The receivers with something to do handle the step in some order (R7, R168). -/
theorem deliver_perm (s : Station) :
    ∃ (rs : List StepReceiver) (k : Nat), rs.Perm ([StepReceiver.track, .agenda, .control].filter s.concerns) ∧
      s.deliver = rs.foldl (fun u r => r.handle u) { s with ties := k } := by
  obtain ⟨k, hk⟩ := s.noteChoice_frame ([StepReceiver.track, .agenda, .control].filter s.concerns)
  refine ⟨_, k, s.chosenOrder_perm StepReceiver.number _, ?_⟩
  rw [← hk]
  rfl

/-- A position that concerns no receiver. -/
theorem deliver_of_none (ht : s.concerns .track = false) (ha : s.concerns .agenda = false)
    (hc : s.concerns .control = false) : s.deliver = s := by
  unfold deliver
  simp only [List.filter, ht, ha, hc, inTieOrder_nil]

/-- A position that concerns station control alone. -/
theorem deliver_of_control (ht : s.concerns .track = false) (ha : s.concerns .agenda = false)
    (hc : s.concerns .control = true) : s.deliver = s.settleStep := by
  unfold deliver
  simp only [List.filter, ht, ha, hc, inTieOrder_singleton]
  rfl

/-- A position that concerns neither the agenda nor station control is the track table's, with or without an item to
remove. -/
theorem deliver_of_track (ha : s.concerns .agenda = false) (hc : s.concerns .control = false) :
    s.deliver = (s.track.takeWhile s.beyondHorizon).foldl (fun u i => u.removeItem i.tag) s := by
  rw [← horizonRemoval_eq]
  cases ht : s.concerns .track with
  | true =>
    unfold deliver
    simp only [List.filter, ht, ha, hc, inTieOrder_singleton]
    rfl
  | false =>
    rw [deliver_of_none ht ha hc, horizonRemoval_eq]
    have hnone : s.track.takeWhile s.beyondHorizon = [] := by
      cases hs : s.track with
      | nil => rfl
      | cons i is =>
        refine List.takeWhile_cons_of_neg fun hb => ?_
        have := (concerns_track_iff s).mpr ⟨i, by rw [hs]; rfl, hb⟩
        rw [ht] at this
        cases this
    rw [hnone]
    rfl

theorem not_concerns_agenda (h : s.pos.matchReg ≠ some s.pos.count) : s.concerns .agenda = false :=
  Bool.eq_false_iff.mpr fun hc => h ((concerns_agenda_iff s).mp hc)

theorem not_concerns_track (h : ∀ i, s.track.head? = some i → s.beyondHorizon i = false) :
    s.concerns .track = false := by
  refine Bool.eq_false_iff.mpr fun hc => ?_
  obtain ⟨i, hi, hb⟩ := (concerns_track_iff s).mp hc
  rw [h i hi] at hb
  cases hb

theorem not_concerns_control (h : ∀ q, s.ctl.settleStart = some q →
    dist s.pos.count q ≠ s.settings.claimHorizon.toNat + 2 * s.settings.skewTolerance.toNat) :
    s.concerns .control = false := by
  refine Bool.eq_false_iff.mpr fun hc => ?_
  obtain ⟨q, hq, hd⟩ := (concerns_control_iff s).mp hc
  exact h q hq hd

end Station

/-- Settles O9: a step by what concerns each receiver, and the sweep at a reverse step and an alignment. -/
theorem stepsReachTheirReceivers : Obligations.StepsReachTheirReceivers := by
  refine ⟨fun s new m hc hsub hm => ?_, fun s => ?_, fun s new m hc hsub hm => ?_, fun s k => rfl, fun s u hu =>
    Station.lateSweep_eq hu⟩
  · have hstep := Station.encoderChange_of_forward_deliver hc hsub hm
    obtain ⟨hcount, hreg, htrack, hctl, hset⟩ : m.pos.count = s.pos.count + 1 ∧ m.pos.matchReg = s.pos.matchReg ∧
        m.track = s.track ∧ m.ctl = s.ctl ∧ m.settings = s.settings := by
      rw [hm]
      exact ⟨rfl, rfl, rfl, rfl, rfl⟩
    rw [← hcount, ← hreg, ← htrack, ← hctl, ← hset]
    refine ⟨?_, fun hdue => ?_, fun hmatch hold q hq hspan => ?_, fun hmatch hspan => ?_⟩
    · obtain ⟨rs, k, hperm, hfold⟩ := m.deliver_perm
      exact ⟨rs, k, hperm, exec_of_effect (hstep.trans hfold)⟩
    · have hconcerns : ∀ r, m.concerns r = false := by
        refine Station.concerns_of_nothingDue ?_
        unfold Station.NothingDueAt Station.OnlyAgendaAt Station.settleSpan at hdue ⊢
        rw [hreg, hctl, htrack, hset]
        exact hdue
      exact exec_of_effect (hstep.trans (Station.deliver_of_none (hconcerns _) (hconcerns _) (hconcerns _)))
    · have hcontrol := (Station.concerns_control_iff m).mpr ⟨q, hq, hspan⟩
      rw [Station.deliver_of_control (Station.not_concerns_track hold) (Station.not_concerns_agenda hmatch) hcontrol]
        at hstep
      refine ⟨fun hst => ?_, fun hst hre => ?_⟩
      · exact exec_of_effect (hstep.trans (Station.settleStep_of_settling hcontrol hst))
      · have hne : m.ctl.state ≠ .settling := by rcases hst with h | h <;> rw [h] <;> decide
        exact exec_of_effect (hstep.trans (Station.settleStep_of_resume hcontrol hne hre))
    · exact exec_of_effect (hstep.trans
        (Station.deliver_of_track (Station.not_concerns_agenda hmatch) (Station.not_concerns_control hspan)))
  · exact ⟨s.beyondHorizon_iff, s.concerns_track_iff, s.concerns_agenda_iff, s.concerns_control_iff,
      s.horizonRemoval_eq, Station.matchStep_of_atMatch, fun h => ⟨Station.settleStep_of_settling h,
      Station.settleStep_of_resume h⟩⟩
  · have hstep := Station.encoderChange_of_reverse_step hc hsub
    rw [← hm] at hstep
    refine ⟨exec_of_effect hstep, fun hreg hahead => exec_of_effect (hstep.trans (Station.lateSweep_of_ahead ?_ ?_))⟩
    · rw [hm]; exact hreg
    · rw [hm]; exact hahead

namespace Station

variable {s : Station}

/-! ## A single entry at its position -/

/-- The claim start of an entry at the position is not ahead: the lead is less than half the belt (R107). -/
theorem claimStart_not_ahead (t : Template) (p : Pos) : ahead (t.claimStart p) p = false := by
  have hlead := t.lead.isLt
  have hp := p.isLt
  rw [Bool.eq_false_iff, ne_eq, ahead_iff, dist_eq, Template.claimStart, BitVec.toNat_sub, BitVec.toNat_setWidth]
  omega

/-- An unwindowed entry, or one whose window has begun, leaves without a word on the line (R115). -/
theorem releaseClaim_at_position {e : Entry} (hfire : e.fire = s.pos.count)
    (hclaim : e.claim = .none ∨ ∃ q, e.claim = .held q) : s.releaseClaim e = s := by
  unfold Station.releaseClaim
  rcases hclaim with h | ⟨q, h⟩
  · rw [h]
  · rw [h, hfire]
    exact if_neg (by rw [claimStart_not_ahead]; exact Bool.false_ne_true)

theorem fireRequest_of_idle {c : Fin 4} (hin : s.inhibits c = false) (hrun : (s.chan c).run = none) (sl : Slot)
    (src : Source) (i : Option Tag) : s.fireRequest c sl src i = s.setChan c ((s.chan c).load sl src i) := by
  have ho : s.fireOutcome c = .loaded := by simp [Station.fireOutcome, hin, hrun]
  unfold Station.fireRequest
  rw [ho]

/-- An entry that passes every check of R111 fires. -/
theorem judgeMatched_of_fires {e : Entry} (hst : s.ctl.state ≠ .drifted)
    (hsat : (s.template e.template).condition.satisfied (s.verdictOf e.item) = true)
    (hrep : (s.template e.template).report = false)
    (hw : ((s.template e.template).windowed && !e.claim.isHeld) = false) :
    s.judgeMatched e = s.fireRequest (s.template e.template).channel (s.template e.template).slot .agenda
      (some e.item) := by
  unfold Station.judgeMatched
  rw [if_neg hst, hsat, hw]
  have hr : s.reportFired e.template e.item = s := by
    unfold Station.reportFired
    rw [hrep]
    rfl
  rw [hr]
  rfl

/-- A match that takes the only entry judges it with the agenda empty, and empties the match register. -/
theorem takeMatch_of_single {e : Entry} (hag : s.agenda = [e]) (hfire : e.fire = s.pos.count) :
    s.takeMatch = ((({ s with agenda := [] } : Station).releaseClaim e).judgeMatched e).loadMatch := by
  have hf : s.agenda.filter (fun e => e.fire == s.pos.count) = [e] := by simp [hag, hfire]
  unfold Station.takeMatch Station.leaveAll
  rw [hf]
  show Station.loadMatch (Station.leaveAgenda Station.judgeMatched s e) = _
  unfold Station.leaveAgenda
  rw [hag, List.erase_cons_head]

/-- The only entry, at its position, fires its channel (R111, R114, R149). -/
theorem takeMatch_of_fires {e : Entry} (hag : s.agenda = [e]) (hfire : e.fire = s.pos.count)
    (hst : s.ctl.state ≠ .drifted)
    (hsat : (s.template e.template).condition.satisfied (s.verdictOf e.item) = true)
    (hrep : (s.template e.template).report = false)
    (hclaim : (s.template e.template).windowed = false ∧ e.claim = .none ∨ ∃ q, e.claim = .held q)
    (hin : s.inhibits (s.template e.template).channel = false)
    (hrun : (s.chan (s.template e.template).channel).run = none) : s.takeMatch =
      { s with
        pos.matchReg := none
        agenda := []
        channels := s.channels.set (s.template e.template).channel.val
          ((s.chan (s.template e.template).channel).load (s.template e.template).slot .agenda (some e.item))
          (s.template e.template).channel.isLt } := by
  have hw : ((s.template e.template).windowed && !e.claim.isHeld) = false := by
    rcases hclaim with ⟨h, -⟩ | ⟨q, h⟩ <;> simp [h, ClaimState.isHeld]
  rw [takeMatch_of_single hag hfire,
    releaseClaim_at_position (s := { s with agenda := [] }) hfire (hclaim.imp_left And.right),
    judgeMatched_of_fires (s := { s with agenda := [] }) hst hsat hrep hw]
  exact congrArg Station.loadMatch (fireRequest_of_idle (s := { s with agenda := [] }) hin hrun _ _ _)

end Station

/-- Settles O10: the fold of a match, a forward step that is one, and the only entry's fire request. -/
theorem entriesAreTakenAtTheirPosition : Obligations.EntriesAreTakenAtTheirPosition := by
  have hmatch : ∀ (s : State) (new : EncLevels), s.CountsForward new → s.pos.sub + 1 = s.settings.prescale.counts →
      s.OnlyAgendaAt (s.pos.count + 1) → s.pos.matchReg = some (s.pos.count + 1) →
      effectOf (.encoderCount new) s.toStation =
        ({ s.toStation with pins.enc := new, pos.ref := s.refAt new, pos.dir := .forward, pos.sub := 0,
                            pos.count := s.pos.count + 1 }).takeMatch := fun s new hc hsub honly hm =>
    (Station.encoderChange_of_forward_step hc hsub).trans (Station.forwardStep_of_onlyAgenda honly hm)
  refine ⟨fun s u hu => Station.takeMatch_eq hu, fun s new hc hsub honly hm =>
    exec_of_effect (hmatch s new hc hsub honly hm), ?_⟩
  intro s new e hc hsub honly hag hreg hfire hst hsat hrep hclaim hin hrun
  have htake := hmatch s new hc hsub honly (by rw [hreg, hfire])
  rw [Station.takeMatch_of_fires (s := { s.toStation with
    pins.enc := new, pos.ref := s.refAt new, pos.dir := .forward, pos.sub := 0, pos.count := s.pos.count + 1 })
    hag hfire hst hsat hrep hclaim hin hrun] at htake
  exact exec_of_effect htake

end Sys2Proof.Machine

/-! PROOF. What a transaction of the service port can do, said once: a change of the port around one action of a block, or
a device reset. -/

namespace Sys2Proof.Machine

/-- What a transaction does to the station beside the port. -/
inductive PortAction (s : Station) : Station → Prop
  | nothing : PortAction s s
  | accept (hst : s.ctl.state = .halted) (hv : s.validate = none) : PortAction s s.accept
  | stop : PortAction s (s.clearForStop.changeState .halted .stop)
  | resume (hst : s.ctl.state = .mute) : PortAction s ({ s with link.goodRun := 0 }.returnToResume .resume)
  | sighting (pos : Pos) (lane : BitVec 2) (cls : BitVec 4) (hin : s.ctl.state.inService = true) :
      PortAction s (s.makeSighting pos lane cls)
  | host (p : Payload) (hin : s.ctl.state.inService = true) : PortAction s (s.enqueue p .host)
  | removal (tag : Tag) : PortAction s (s.removeItem tag)
  | request (c : Fin 4) (sl : Slot) : PortAction s (s.fireRequest c sl .force none)
  | commit (c : Fin 4) (sl : Slot) : PortAction s (s.setCommit c sl)
  | pop (e : EventRecord) (es : List EventRecord) (h : s.events = e :: es) : PortAction s { s with events := es }
  | item (i : ConfigItem) (x : Word) (t : Station) (ht : s.takeItem i x = some t) : PortAction s t

/-- What a transaction leaves. -/
inductive PortEffect (s : Station) : Station → Prop
  | acts (p p' : ServicePort) {t u : Station} (h : PortAction { s with port := p } u) (ht : t = { u with port := p' }) :
      PortEffect s t
  | reset (levels : InputLevels) : PortEffect s (Station.resetAt levels s.ties)

namespace Station

variable (s : Station)

theorem port_effect (p : ServicePort) : PortEffect s { s with port := p } := .acts s.port p .nothing rfl

theorem portAnswers_effect (a : Access) (m : Word) : PortEffect s (s.portAnswers a m) := s.port_effect _

/-! ## Commands of the controller -/

/-- A command's body makes one action and may change the port. -/
def Answers (s : Station) (a : Answer) : Prop := ∃ u p, PortAction s u ∧ a.station = { u with port := p }

variable {s} in
theorem Answers.of_action {u : Station} (h : PortAction s u) {code : ResultCode} {detail : BitVec 16} :
    Answers s { station := u, code := code, detail := detail } := ⟨u, u.port, h, rfl⟩

theorem answer_answers (code : ResultCode) : Answers s (s.answer code) := .of_action .nothing

theorem runCommand_effect {body : Station → Answer} (hb : ∀ t, Answers t (body t)) (code : BitVec 8) :
    PortEffect s (s.runCommand code body) := by
  obtain ⟨u, p, hu, heq⟩ := hb { s with port.command := code, port.access := .ok, port.miso := 0 }
  refine .acts _ (s.runCommand code body).port hu ?_
  unfold Station.runCommand
  rw [heq]

theorem whenInService_answers {body : Station → Answer} (hb : ∀ t, t.ctl.state.inService = true → Answers t (body t)) :
    Answers s (s.whenInService body) := by
  cases hin : s.ctl.state.inService with
  | true => rw [whenInService_of_inService hin]; exact hb s hin
  | false => rw [whenInService_of_not hin]; exact s.answer_answers _

theorem start_answers : Answers s s.start := by
  unfold Station.start
  split
  · exact s.answer_answers _
  · next hst =>
    split
    · exact .of_action .nothing
    · next hv => exact .of_action (.accept (not_not.mp hst) hv)

theorem stop_answers : Answers s (Station.stop s) := by
  unfold Station.stop
  split
  · exact s.answer_answers _
  · exact .of_action .stop

theorem resume_answers : Answers s (Station.resume s) := by
  unfold Station.resume
  split
  · exact s.answer_answers _
  · next hst => exact .of_action (.resume (not_not.mp hst))

theorem postSightArgs_answers (hin : s.ctl.state.inService = true) : Answers s s.postSightArgs := by
  unfold Station.postSightArgs
  split
  · exact .of_action (.sighting _ _ _ hin)
  all_goals exact s.answer_answers _

theorem postVerdictArgs_answers (hin : s.ctl.state.inService = true) : Answers s s.postVerdictArgs := by
  unfold Station.postVerdictArgs
  split
  · exact .of_action (.host _ hin)
  all_goals exact s.answer_answers _

theorem retireItemArgs_answers (hin : s.ctl.state.inService = true) : Answers s s.retireItemArgs := by
  unfold Station.retireItemArgs
  split
  · exact .of_action (.host _ hin)
  · exact s.answer_answers _

theorem dropItem_answers : Answers s s.dropItem := by
  unfold Station.dropItem
  split
  · exact s.answer_answers _
  · split
    · exact .of_action (.removal _)
    · exact s.answer_answers _

theorem forceFire_answers : Answers s s.forceFire := by
  unfold Station.forceFire
  split
  · exact .of_action (.request _ _)
  all_goals exact s.answer_answers _

theorem commitForm_answers : Answers s s.commitForm := by
  unfold Station.commitForm
  split
  · exact .of_action (.commit _ _)
  all_goals exact s.answer_answers _

theorem popEvent_answers : Answers s s.popEvent := by
  unfold Station.popEvent
  split
  · exact ⟨s, _, .nothing, rfl⟩
  · next e es he => exact ⟨_, _, .pop e es he, rfl⟩

theorem commandWrite_effect (code : BitVec 8) : PortEffect s (s.commandWrite code) := by
  unfold Station.commandWrite
  split
  · exact s.runCommand_effect start_answers _
  · exact s.runCommand_effect stop_answers _
  · exact s.runCommand_effect resume_answers _
  · exact s.runCommand_effect (fun t => t.whenInService_answers postSightArgs_answers) _
  · exact s.runCommand_effect (fun t => t.whenInService_answers postVerdictArgs_answers) _
  · exact s.runCommand_effect (fun t => t.whenInService_answers retireItemArgs_answers) _
  · exact s.runCommand_effect dropItem_answers _
  · exact s.runCommand_effect forceFire_answers _
  · exact s.runCommand_effect commitForm_answers _
  · exact s.runCommand_effect popEvent_answers _
  · exact s.runCommand_effect (fun t => t.answer_answers _) _

/-! ## Registers and configuration -/

theorem writeTableSel_effect (x : Word) : PortEffect s (s.writeTableSel x) := by
  unfold Station.writeTableSel
  split
  · exact s.portAnswers_effect _ _
  · exact s.port_effect _

theorem writeDeviceReset_effect (x : Word) : PortEffect s (s.writeDeviceReset x) := by
  unfold Station.writeDeviceReset
  split
  · exact .reset _
  · exact s.portAnswers_effect _ _

theorem registerWrite_effect (number : BitVec 8) (x : Word) : PortEffect s (s.registerWrite number x) := by
  unfold Station.registerWrite
  split
  case h_4 => exact s.commandWrite_effect _
  case h_10 => exact s.writeTableSel_effect _
  case h_16 => exact s.writeDeviceReset_effect _
  all_goals exact s.port_effect _

theorem writeItem_effect (i : ConfigItem) (x : Word) : PortEffect s (s.writeItem i x) := by
  unfold Station.writeItem
  split
  · exact s.portAnswers_effect _ _
  · next t ht => exact .acts s.port _ (.item i x t ht) rfl

theorem configWrite_effect (number : BitVec 8) (x : Word) : PortEffect s (s.configWrite number x) := by
  unfold Station.configWrite
  split
  · exact s.portAnswers_effect _ _
  · exact s.portAnswers_effect _ _
  · split
    · exact s.writeItem_effect _ _
    · exact s.portAnswers_effect _ _
  · exact s.writeItem_effect _ _

theorem transaction_effect (type number : BitVec 8) (x : Word) : PortEffect s (s.transaction type number x) := by
  unfold Station.transaction
  split
  case h_2 => exact s.registerWrite_effect _ _
  case h_4 => exact s.configWrite_effect _ _
  all_goals exact s.port_effect _

end Station

/-! ## Every command of the port -/

/-- A command that is a transaction or a device reset. -/
def isPortCommand : Instr → Bool
  | .start | .stop | .resume | .postSight | .postVerdict | .retireItem | .dropItem | .forceFire | .commitForm | .popEvent
  | .unassignedCommand _ | .tableSel _ | .registerWrite _ _ | .configRead _ | .configWrite _ _
  | .voidTransaction _ _ _ | .deviceReset _ | .deviceResetWrite _ => true
  | _ => false

/-- The commands by name are COMMAND writes of their codes (R180). -/
theorem effectOf_port {c : Instr} (h : isPortCommand c = true) (s : Station) : PortEffect s (effectOf c s) := by
  cases c with
  | start => exact s.commandWrite_effect 1
  | stop => exact s.commandWrite_effect 2
  | resume => exact s.commandWrite_effect 3
  | postSight => exact s.commandWrite_effect 4
  | postVerdict => exact s.commandWrite_effect 5
  | retireItem => exact s.commandWrite_effect 6
  | dropItem => exact s.commandWrite_effect 7
  | forceFire => exact s.commandWrite_effect 8
  | commitForm => exact s.commandWrite_effect 9
  | popEvent => exact s.commandWrite_effect 10
  | unassignedCommand code => exact s.commandWrite_effect code
  | tableSel x => exact s.writeTableSel_effect x
  | registerWrite n x => exact s.registerWrite_effect n x
  | configRead i => exact s.portAnswers_effect _ _
  | configWrite i x => exact s.configWrite_effect i x
  | voidTransaction ty n x => exact s.transaction_effect ty n x
  | deviceReset levels => exact .reset levels
  | deviceResetWrite x => exact s.writeDeviceReset_effect x
  | _ => cases h

end Sys2Proof.Machine

/-! PROOF. The line rules under every step, whatever station control holds, and what a MUTE station drives. -/

namespace Sys2Proof.Machine

namespace Station

variable {s t u : Station}

/-! ## Operations that leave the line -/

/-- No frame of the queue comes into flight or ends, and what the line shows and what is driven stay. -/
structure KeepsLine (l l' : LinkController) : Prop where
  flight : KeepsFlight l.txq l'.txq
  idle : l'.idle = l.idle
  receiving : l'.receiving = l.receiving
  drive : l'.drive = l.drive

/-- An operation leaves the line as it is. -/
abbrev LineKept (s t : Station) : Prop := KeepsLine s.link t.link

theorem LineKept.refl (s : Station) : LineKept s s := ⟨.refl _, rfl, rfl, rfl⟩

theorem LineKept.trans (h : LineKept s t) (h' : LineKept t u) : LineKept s u :=
  ⟨h.flight.trans h'.flight, h'.idle.trans h.idle, h'.receiving.trans h.receiving, h'.drive.trans h.drive⟩

theorem LineKept.of_link (h : t.link = { s.link with txq := t.link.txq }) (hf : FlightKept s t) : LineKept s t :=
  ⟨hf, by rw [h], by rw [h], by rw [h]⟩

theorem ControlFrame.lineKept (h : ControlFrame s t) : LineKept s t := .of_link h.link h.flight

/-- Where the line is left, the rules hold in the same state as before and in a state of service. -/
theorem LineConsistent.of_lineKept (h : s.LineConsistent) (hk : LineKept s t)
    (hst : t.ctl.state = s.ctl.state ∨ t.ctl.state.inService = true) : t.LineConsistent := by
  rw [lineConsistent_iff] at *
  obtain ⟨hq, hfl, hd, hi, hh, hm⟩ := h
  obtain ⟨hq', hf⟩ := hk.flight hq
  rw [hf, hk.idle, hk.receiving, hk.drive]
  refine ⟨hq', fun h => ⟨?_, (hfl h).2⟩, hd, hi, fun h => ?_, fun h => ?_⟩
  · exact hst.elim (fun e => e ▸ (hfl h).1) id
  · rcases hst with e | e
    · exact hh (e ▸ h)
    · rw [h] at e; cases e
  · rcases hst with e | e
    · exact hm (e ▸ h)
    · rw [h] at e; cases e

/-! ## A line on which this station drives nothing -/

/-- Nothing is in flight, the line is left released, and it is not idle while a frame is being decoded. -/
structure Silent (s : Station) : Prop where
  waiting : s.AllWaiting
  drive : s.link.drive = .released
  gap : s.link.idle = true → s.link.receiving = false

/-- A silent line is within the rules in every state. -/
theorem Silent.lineConsistent (h : s.Silent) : s.LineConsistent :=
  lineConsistent_of_allWaiting h.waiting (by rw [h.drive]; decide) h.gap (fun _ => h.drive) (fun _ => .inl h.drive)

theorem Silent.of_lineKept (h : s.Silent) (hk : LineKept s t) : t.Silent := by
  have hhead : HeadOnly s.link.txq := fun e he => h.waiting e (List.mem_of_mem_tail he)
  obtain ⟨hq, hf⟩ := hk.flight hhead
  refine ⟨allWaiting_of_headOnly hq (hf.trans h.waiting.headFlight), hk.drive.trans h.drive, ?_⟩
  rw [hk.idle, hk.receiving]
  exact h.gap

/-! ## Takes -/

theorem returnToResume_lineKept (s : Station) (c : Cause) : LineKept s (s.returnToResume c) := by
  obtain ⟨ct, m, ev, heq⟩ := s.returnToResume_frame c
  rw [heq]
  exact ⟨.refl _, rfl, rfl, rfl⟩

theorem resolveDrift_lineKept (s : Station) : LineKept s s.resolveDrift :=
  returnToResume_lineKept { s with pos.suspect := none } .resolved

theorem align_lineKept (s : Station) (k : Pos) : LineKept s (s.align k) := (s.align_controlFrame k).lineKept

theorem resolveSkew_lineKept (s : Station) (o : Station5) (k : Pos) : LineKept s (s.resolveSkew o k) := by
  unfold Station.resolveSkew
  split
  · exact .refl s
  · split
    · unfold Station.suspectSpeaks
      split
      · exact s.resolveDrift_lineKept
      · exact ⟨.refl _, rfl, rfl, rfl⟩
    · unfold Station.thirdOpinion
      split
      · exact resolveDrift_lineKept (Station.addRecord _ s)
      · split
        · exact (s.align_lineKept k).trans (resolveDrift_lineKept (Station.addRecord _ (s.align k)))
        · exact ⟨.refl _, rfl, rfl, rfl⟩

theorem judgePosition_lineKept (s : Station) (o : Station5) (k : Pos) : LineKept s (s.judgePosition o k) := by
  have check : LineKept s (s.checkSkew o k) := by
    unfold Station.checkSkew
    split
    · exact .refl s
    · exact ⟨.refl _, rfl, rfl, rfl⟩
  obtain ⟨hf, hi, hr, hd⟩ := s.align_lineKept k
  unfold Station.judgePosition
  split
  · exact ⟨hf, hi, hr, hd⟩
  · exact check
  · exact check
  · exact s.resolveSkew_lineKept o k
  · exact .refl s
  · exact .refl s

theorem applyFrame_lineKept (s : Station) (own : Bool) (f : Frame) : LineKept s (s.applyFrame own f) :=
  (s.applyFrame_controlFrame own f).lineKept

theorem noteDuplicate_lineKept (s : Station) (f : Frame) : LineKept s (s.noteDuplicate f) := by
  obtain ⟨ev, heq⟩ := s.noteDuplicate_frame f
  rw [heq]
  exact ⟨.refl _, rfl, rfl, rfl⟩

theorem countGoodFrame_lineKept (s : Station) : LineKept s s.countGoodFrame := by
  obtain ⟨ct, g, m, ev, heq⟩ := s.countGoodFrame_frame
  rw [heq]
  exact ⟨.refl _, rfl, rfl, rfl⟩

theorem takeOther_lineKept (s : Station) (f : Frame) : LineKept s (s.takeOther f) :=
  (s.noteDuplicate_lineKept f).trans <| (countGoodFrame_lineKept _).trans <|
    (judgePosition_lineKept _ _ _).trans (applyFrame_lineKept _ _ _)

/-- A take changes nothing, or it releases the line. -/
theorem LineConsistent.takeFrame (h : s.LineConsistent) (f : Frame) :
    s.takeFrame f = s ∨ (s.takeFrame f).Silent := by
  unfold Station.takeFrame
  split
  · exact .inl rfl
  · split
    · next g hg =>
      have hown : s.frameOver.takeOwn.Silent := ⟨((lineConsistent_iff s).mp h).1, rfl, fun _ => rfl⟩
      exact .inr (hown.of_lineKept (applyFrame_lineKept _ _ _))
    · split
      · next hr =>
        have hover : s.frameOver.Silent := ⟨h.allWaiting (h.not_frame_of_receiving hr), rfl, fun _ => rfl⟩
        exact .inr (hover.of_lineKept (takeOther_lineKept _ _))
      · exact .inl rfl

/-! ## Failed attempts -/

/-- Once an attempt has ended, the count of failures leaves the line within the rules, in MUTE too. -/
theorem countFailure_lineConsistent (hw : s.AllWaiting) (hd : s.link.drive = .released ∨ s.link.drive = .breaks)
    (hi : s.link.idle = true → s.link.receiving = false) (hh : s.ctl.state ≠ .halted) :
    s.countFailure.LineConsistent := by
  have hne : s.link.drive ≠ .frame := by rcases hd with h | h <;> rw [h] <;> decide
  unfold Station.countFailure
  split
  · exact lineConsistent_of_allWaiting hw hne hi (fun h => absurd h hh) (fun _ => hd)
  · split
    · unfold Station.enterMute
      obtain ⟨ag, ev, heq⟩ := Station.flushQueue_frame
        ({ s with link.fails := 0, ctl.resume := s.ctl.state.toResume, link.mark := .stopped,
                  link.goodRun := 0 }.changeState .mute .sendFailures)
      rw [heq]
      exact lineConsistent_of_allWaiting (fun _ hx => (nomatch hx)) hne hi (fun h => (nomatch h)) (fun _ => hd)
    · exact lineConsistent_of_allWaiting hw hne hi (fun h => absurd h hh) (fun _ => hd)

/-- The head's failed attempt, from a station within the rules that now drives the break or nothing (R31, R36). -/
theorem LineConsistent.failHead (h : s.LineConsistent) {e : TxEntry} {es : List TxEntry} (hq : s.link.txq = e :: es)
    (he : e.inFlight = true) {d : LinkDrive} (hd : d = .released ∨ d = .breaks) (ev : List EventRecord) :
    (({ s with link.drive := d, events := ev } : Station).failHead e).LineConsistent := by
  obtain ⟨hhead, hfl, -, -, -, -⟩ := (lineConsistent_iff s).mp h
  obtain ⟨hin, hr⟩ := hfl (by rw [hq]; exact he)
  have hh : s.ctl.state ≠ .halted := (joined_of_inService hin).1
  unfold Station.failHead
  split
  · refine countFailure_lineConsistent ?_ hd (fun _ => hr) hh
    rintro x (_ | ⟨_, hx⟩)
    · rfl
    · exact hhead x hx
  · unfold Station.dropHead
    obtain ⟨ag, ev', heq⟩ := Station.handBack_frame false
      (({ s with link.drive := d, link.txq := s.link.txq.tail, events := ev } : Station).addRecord
        (frameFields .sendFailed s.settings.stationNumber e.payload)) e
    rw [heq]
    exact countFailure_lineConsistent hhead hd (fun _ => hr) hh

theorem LineConsistent.attemptFails (h : s.LineConsistent) : s.attemptFails.LineConsistent := by
  unfold Station.attemptFails
  split
  · exact h
  · next hq =>
    split
    · next he => exact h.failHead hq he (.inl rfl) s.events
    · exact h

theorem LineConsistent.findBitClash (h : s.LineConsistent) : s.findBitClash.LineConsistent := by
  unfold Station.findBitClash
  split
  · exact h
  · next hq =>
    split
    · next he => exact h.failHead hq he (.inr rfl) _
    · exact h

/-! ## The line's own events -/

theorem LineConsistent.headOnly (h : s.LineConsistent) : HeadOnly s.link.txq := h.1

theorem LineConsistent.seeStartBit (h : s.LineConsistent) : s.seeStartBit.LineConsistent := by
  by_cases hon : s.receiverOn = true ∧ s.link.idle = true
  · obtain ⟨hhead, -, -, hi, -, -⟩ := (lineConsistent_iff s).mp h
    rw [seeStartBit_of hon]
    exact Silent.lineConsistent ⟨allWaiting_of_headOnly hhead (hi hon.2).2, rfl, fun h => (nomatch h)⟩
  · rw [seeStartBit_of_not hon]
    exact h

theorem LineConsistent.seeIdleGap (h : s.LineConsistent) : s.seeIdleGap.LineConsistent := by
  by_cases hon : s.receiverOn = true ∧ s.link.receiving = false ∧ s.headInFlight = false
  · rw [seeIdleGap_of hon]
    obtain ⟨-, hr, hf⟩ := hon
    rw [headInFlight_eq] at hf
    exact Silent.lineConsistent ⟨allWaiting_of_headOnly h.headOnly hf, rfl, fun _ => hr⟩
  · rw [seeIdleGap_of_not hon]
    exact h

theorem LineConsistent.startFrame (h : s.LineConsistent) : s.startFrame.LineConsistent := by
  cases hq : s.link.txq with
  | nil => rw [startFrame_of_not (.inl hq)]; exact h
  | cons e es =>
    cases hi : s.link.idle with
    | false => rw [startFrame_of_not (.inr (.inl hi))]; exact h
    | true =>
      cases hin : s.ctl.state.inService with
      | false => rw [startFrame_of_not (.inr (.inr hin))]; exact h
      | true =>
        have hhead := h.headOnly
        rw [hq] at hhead
        rw [startFrame_of hq hin hi, lineConsistent_iff]
        refine ⟨hhead, fun _ => ⟨hin, rfl⟩, iff_of_true rfl rfl, fun h => (nomatch h),
          fun hst => absurd hst (joined_of_inService hin).1, fun hst => ?_⟩
        rw [show s.ctl.state = .mute from hst] at hin
        cases hin

/-- The arbitration is lost with a head in flight alone, and then the line is released. -/
theorem LineConsistent.loseArbitration (h : s.LineConsistent) : s.loseArbitration = s ∨ s.loseArbitration.Silent := by
  unfold Station.loseArbitration
  split
  · next hf =>
    obtain ⟨hhead, -, -, hi, -, -⟩ := (lineConsistent_iff s).mp h
    rw [headInFlight_eq] at hf
    refine .inr ⟨?_, rfl, fun hid => by rw [(hi hid).2] at hf; cases hf⟩
    unfold AllWaiting
    cases hq : s.link.txq with
    | nil => exact fun _ hx => (nomatch hx)
    | cons e es =>
      rw [hq] at hhead
      rintro x (_ | ⟨_, hx⟩)
      · rfl
      · exact hhead x hx
  · exact .inl rfl

theorem LineConsistent.judgeLevels (h : s.LineConsistent) (levels : List Bool) :
    (s.judgeLevels levels).LineConsistent := by
  unfold Station.judgeLevels
  split
  · next hon =>
    simp only [Bool.and_eq_true] at hon
    have hne : s.ctl.state ≠ .halted := by simpa [Station.receiverOn] using hon.1
    split
    · next r _ _ =>
      refine lineConsistent_of_allWaiting (h.allWaiting (h.not_frame_of_receiving hon.2)) ?_ (fun _ => rfl)
        (fun hst => absurd hst hne) (fun hst => .inl (if_pos hst))
      show (if s.ctl.state = .mute then LinkDrive.released else r.refusal) ≠ .frame
      split
      · decide
      · cases r <;> decide
    · exact h
    · exact h
  · exact h

theorem LineConsistent.frameRejected (h : s.LineConsistent) : s.frameRejected.LineConsistent := by
  unfold Station.frameRejected
  split
  · obtain ⟨hhead, hfl, hd, hi, hh, hm⟩ := h
    exact ⟨hhead, fun hf => ⟨(hfl hf).1, rfl⟩, hd, fun hid => ⟨rfl, (hi hid).2⟩, hh, hm⟩
  · exact h

/-! ## Steps, timers and the queue's other sources -/

theorem settleStep_lineKept (s : Station) : LineKept s s.settleStep ∧
    (s.settleStep.ctl.state = s.ctl.state ∨ s.settleStep.ctl.state.inService = true) := by
  obtain ⟨st, re, ss, ev, heq, hst⟩ := s.settleStep_frame
  rw [heq]
  exact ⟨⟨.refl _, rfl, rfl, rfl⟩, hst.imp_right fun h => by rw [h.2]; rfl⟩

theorem LineConsistent.handle (h : s.LineConsistent) (r : StepReceiver) : (r.handle s).LineConsistent := by
  cases r with
  | track => exact (removeOldest_controlFrame _ s).line h
  | agenda =>
    show s.matchStep.LineConsistent
    unfold Station.matchStep
    split
    · exact s.takeMatch_controlFrame.line h
    · exact h
  | control => exact h.of_lineKept s.settleStep_lineKept.1 s.settleStep_lineKept.2

theorem LineConsistent.forwardStep (h : s.LineConsistent) : s.forwardStep.LineConsistent := by
  unfold Station.forwardStep
  refine Station.inTieOrder_induct (fun _ _ ht => ht) (fun r _ _ ht => ht.handle r) ?_
  exact h

theorem LineConsistent.count (h : s.LineConsistent) (d : Direction) : (s.count d).LineConsistent := by
  unfold Station.count
  split
  · split
    · refine LineConsistent.forwardStep ?_
      exact h
    · exact h
  · split
    · refine (lateSweep_controlFrame _).line ?_
      exact h
    · exact h

theorem LineConsistent.encoderChange (h : s.LineConsistent) (new : EncLevels) :
    (s.encoderChange new).LineConsistent := by
  unfold Station.encoderChange
  split
  · exact h
  · refine LineConsistent.count ?_ _
    exact h

theorem markExpires_lineKept (s : Station) : LineKept s s.markExpires := by
  unfold Station.markExpires
  split
  · exact .refl s
  · split
    · exact ⟨.refl _, rfl, rfl, rfl⟩
    · split
      · exact ⟨KeepsFlight.append_waiting _ rfl, rfl, rfl, rfl⟩
      · exact ⟨.refl _, rfl, rfl, rfl⟩

theorem markExpires_ctl (s : Station) : s.markExpires.ctl = s.ctl := by
  unfold Station.markExpires
  split
  · rfl
  · split
    · rfl
    · split <;> rfl

theorem joinExpires_lineKept (s : Station) : LineKept s s.joinExpires := by
  unfold Station.joinExpires
  split
  · exact ⟨.refl _, rfl, rfl, rfl⟩
  · exact .refl s

theorem LineConsistent.joinExpires (h : s.LineConsistent) : s.joinExpires.LineConsistent := by
  refine h.of_lineKept s.joinExpires_lineKept ?_
  unfold Station.joinExpires
  split
  · exact .inr rfl
  · exact .inl rfl

theorem enqueue_lineKept (s : Station) (p : Payload) (o : TxOrigin) : LineKept s (s.enqueue p o) := by
  have hf := s.enqueue_flightKept p o
  obtain ⟨q, ev, heq⟩ := s.enqueue_frame p o
  rw [heq] at hf ⊢
  exact ⟨hf, rfl, rfl, rfl⟩

theorem makeSighting_lineKept (s : Station) (pos : Pos) (lane : BitVec 2) (cls : BitVec 4) :
    LineKept s (s.makeSighting pos lane cls) :=
  enqueue_lineKept { s with sense.seq := s.sense.seq + 1 } (.sight s.sense.seq pos lane cls) .sensor

theorem sensorRead_lineKept (s : Station) (n : Fin 4) (level : Bool) : LineKept s (s.sensorRead n level) := by
  have hf : FlightKept s (s.sensorRead n level) := by
    unfold Station.sensorRead
    split
    · exact .refl s
    · split
      · exact sensorEdge_flightKept (s.setSensor n { s.sensor n with level := level }) n
      · exact .refl s
  obtain ⟨se, q, ev, heq⟩ := s.sensorRead_frame n level
  rw [heq] at hf ⊢
  exact ⟨hf, rfl, rfl, rfl⟩

theorem sensorRead_ctl (s : Station) (n : Fin 4) (level : Bool) : (s.sensorRead n level).ctl = s.ctl := by
  obtain ⟨se, q, ev, heq⟩ := s.sensorRead_frame n level
  rw [heq]

theorem unmute_lineKept (s : Station) (c : Cause) : LineKept s ({ s with link.goodRun := 0 }.returnToResume c) := by
  obtain ⟨hf, hi, hr, hd⟩ := returnToResume_lineKept { s with link.goodRun := 0 } c
  exact ⟨hf, hi, hr, hd⟩

/-- The return goes to SETTLING or ACTIVE. -/
theorem returnToResume_state (s : Station) (c : Cause) :
    (s.returnToResume c).ctl.state = s.ctl.state ∨ (s.returnToResume c).ctl.state.inService = true := by
  cases hr : s.ctl.resume with
  | none => unfold Station.returnToResume; rw [hr]; exact .inl rfl
  | some r => rw [returnToResume_of hr]; exact .inr (by cases r <;> rfl)

end Station

/-! ## Every step -/

theorem lineConsistent_keptByBlocks : KeptByBlocks Station.LineConsistent where
  ties _ _ h := h
  port _ _ h := h
  events _ _ h := h
  resetAt _ _ := Station.Silent.lineConsistent ⟨fun _ hx => (nomatch hx), rfl, fun h => (nomatch h)⟩
  tick _ h := h
  encoderChange _ new h := h.encoderChange new
  seeStartBit _ h := h.seeStartBit
  seeIdleGap _ h := h.seeIdleGap
  startFrame _ h := h.startFrame
  loseArbitration s h := h.loseArbitration.elim (fun e => by rw [e]; exact h) (·.lineConsistent)
  findBitClash _ h := h.findBitClash
  attemptFails _ h := h.attemptFails
  judgeLevels _ levels h := h.judgeLevels levels
  frameRejected _ h := h.frameRejected
  takeFrame s f h := (h.takeFrame f).elim (fun e => by rw [e]; exact h) (·.lineConsistent)
  markExpires s h := h.of_lineKept s.markExpires_lineKept (.inl (by rw [s.markExpires_ctl]))
  joinExpires _ h := h.joinExpires
  sensorRead s n level h := h.of_lineKept (s.sensorRead_lineKept n level) (.inl (by rw [s.sensorRead_ctl]))
  auxRead s n level h := by
    obtain ⟨a, ch, ev, k, heq⟩ := s.auxRead_frame n level
    rw [heq]
    exact h
  delayExpires s c h := by
    obtain ⟨ch, heq⟩ := s.delayExpires_frame c
    rw [heq]
    exact h
  highExpires s c h := by
    obtain ⟨ch, ev, heq⟩ := s.highExpires_frame c
    rw [heq]
    exact h
  lowExpires s c h := by
    obtain ⟨ch, heq⟩ := s.lowExpires_frame c
    rw [heq]
    exact h
  holdCapExpires s c h := by
    obtain ⟨ch, ev, heq⟩ := s.holdCapExpires_frame c
    rw [heq]
    exact h
  accept s hst _ h := Station.Silent.lineConsistent
    ⟨h.allWaiting (h.not_frame_of_not_inService (by rw [hst]; rfl)), rfl, fun _ => rfl⟩
  stop _ _ := Station.Silent.lineConsistent ⟨fun _ hx => (nomatch hx), rfl, fun h => (nomatch h)⟩
  resume s _ h := h.of_lineKept (s.unmute_lineKept .resume)
    (Station.returnToResume_state { s with link.goodRun := 0 } .resume)
  makeSighting s pos lane cls _ h := by
    have hk := s.makeSighting_lineKept pos lane cls
    obtain ⟨q, ev, heq⟩ := s.makeSighting_frame pos lane cls
    exact h.of_lineKept hk (.inl (by rw [heq]))
  enqueueHost s p _ h := by
    have hk := s.enqueue_lineKept p .host
    obtain ⟨q, ev, heq⟩ := s.enqueue_frame p .host
    exact h.of_lineKept hk (.inl (by rw [heq]))
  removeItem s tag _ h := (s.removeItem_controlFrame tag).line h
  fireRequest s c sl src item h := by
    obtain ⟨ch, ev, heq⟩ := s.fireRequest_frame c sl src item
    rw [heq]
    exact h
  setCommit _ _ _ h := h
  takeItem s i x t _ ht h := by
    obtain ⟨rf, sb, ch, ev, k, heq⟩ := (Station.takeItem_frame ht).eq
    rw [heq]
    exact h

/-! ## Silence in MUTE -/

namespace Station

variable {s t : Station}

/-- What is driven stays, or the line is released. -/
def DriveKept (s t : Station) : Prop := t.link.drive = s.link.drive ∨ t.link.drive = .released

theorem DriveKept.refl (s : Station) : DriveKept s s := .inl rfl

theorem DriveKept.of_link {q : List TxEntry} (h : t.link = { s.link with txq := q }) : DriveKept s t :=
  .inl (by rw [h])

theorem LineKept.driveKept (h : LineKept s t) : DriveKept s t := .inl h.drive

/-- No transaction drives the line (R63, R64). -/
theorem driveKept_of_portAction (h : PortAction s t) : DriveKept s t := by
  cases h with
  | nothing => exact .refl s
  | accept => exact .inr rfl
  | stop => exact .inr rfl
  | resume => exact (s.unmute_lineKept _).driveKept
  | sighting pos lane cls => exact (s.makeSighting_lineKept pos lane cls).driveKept
  | host p => exact (s.enqueue_lineKept p .host).driveKept
  | removal tag => exact (s.removeItem_controlFrame tag).lineKept.driveKept
  | request c sl =>
    obtain ⟨ch, ev, heq⟩ := s.fireRequest_frame c sl .force none
    rw [heq]
    exact .inl rfl
  | commit => exact .inl rfl
  | pop => exact .inl rfl
  | item i x t ht =>
    obtain ⟨rf, sb, ch, ev, k, heq⟩ := (takeItem_frame ht).eq
    rw [heq]
    exact .inl rfl

theorem driveKept_of_portEffect (h : PortEffect s t) : DriveKept s t := by
  cases h with
  | acts p p' hu ht =>
    have hkept := driveKept_of_portAction hu
    rw [ht]
    exact hkept
  | reset => exact .inr rfl

/-- A station in MUTE has no head in flight (R39, R46). -/
theorem LineConsistent.headInFlight_of_mute (h : s.LineConsistent) (hst : s.ctl.state = .mute) :
    s.headInFlight = false := by
  obtain ⟨-, hfl, -⟩ := h
  refine Bool.eq_false_iff.mpr fun hf => ?_
  have hin := (hfl hf).1
  rw [hst] at hin
  cases hin

theorem failHead_of_headInFlight (h : s.headInFlight = false) : s.attemptFails = s ∧ s.findBitClash = s := by
  unfold Station.headInFlight at h
  unfold Station.attemptFails Station.findBitClash
  cases hq : s.link.txq with
  | nil => exact ⟨rfl, rfl⟩
  | cons e es => rw [hq] at h; simp_all

/-- Nothing new is driven in MUTE, whatever the command (R45). -/
theorem LineConsistent.driveKept_of_mute (h : s.LineConsistent) (hst : s.ctl.state = .mute) (c : Instr) :
    DriveKept s (effectOf c s) := by
  have hf := h.headInFlight_of_mute hst
  cases c with
  | encoderCount new =>
    obtain ⟨dir, sub, cnt, hstep⟩ := s.encoderChange_stepFrame new
    exact .of_link hstep.link
  | startBit =>
    by_cases hon : s.receiverOn = true ∧ s.link.idle = true
    · exact .inr (by rw [effectOf, seeStartBit_of hon])
    · exact .inl (by rw [effectOf, seeStartBit_of_not hon])
  | idleGap =>
    by_cases hon : s.receiverOn = true ∧ s.link.receiving = false ∧ s.headInFlight = false
    · exact .inr (by rw [effectOf, seeIdleGap_of hon])
    · exact .inl (by rw [effectOf, seeIdleGap_of_not hon])
  | frameStart => exact .inl (by rw [effectOf, startFrame_of_not (.inr (.inr (by rw [hst]; rfl)))])
  | lostArbitration => exact .inl (by rw [effectOf, loseArbitration_of_not hf])
  | bitClash => exact .inl (by rw [effectOf, (failHead_of_headInFlight hf).2])
  | failedAttempt => exact .inl (by rw [effectOf, (failHead_of_headInFlight hf).1])
  | frameFault levels =>
    show DriveKept s (s.judgeLevels levels)
    unfold Station.judgeLevels
    split
    · split
      · exact .inr (if_pos hst)
      · exact .refl s
      · exact .refl s
    · exact .refl s
  | frameRejected =>
    show DriveKept s s.frameRejected
    unfold Station.frameRejected
    split <;> exact .inl rfl
  | frameTake f => exact (h.takeFrame f).imp (fun e => by rw [effectOf, e]) (·.drive)
  | markTimerExpiry => exact s.markExpires_lineKept.driveKept
  | joinTimeout => exact s.joinExpires_lineKept.driveKept
  | sensorInputChange n level => exact (s.sensorRead_lineKept n level).driveKept
  | auxInputChange n level =>
    obtain ⟨a, ch, ev, k, heq⟩ := s.auxRead_frame n level
    exact .inl (by rw [effectOf, heq])
  | delayExpiry d =>
    obtain ⟨ch, heq⟩ := s.delayExpires_frame d
    exact .inl (by rw [effectOf, heq])
  | highWidthExpiry d =>
    obtain ⟨ch, ev, heq⟩ := s.highExpires_frame d
    exact .inl (by rw [effectOf, heq])
  | lowWidthExpiry d =>
    obtain ⟨ch, heq⟩ := s.lowExpires_frame d
    exact .inl (by rw [effectOf, heq])
  | holdCapExpiry d =>
    obtain ⟨ch, ev, heq⟩ := s.holdCapExpires_frame d
    exact .inl (by rw [effectOf, heq])
  | _ => exact driveKept_of_portEffect (effectOf_port rfl s)

end Station

/-- Settles O55: the rules are kept block by block, since what leaves the line keeps them and what changes it ends in a
released line or in the break of a failed attempt; and in MUTE no command drives anything. -/
theorem everyStepKeepsTheLineRules : Obligations.EveryStepKeepsTheLineRules := by
  refine ⟨lineConsistent_keptByBlocks.keptByEveryStep, fun s t hs hst hstep _ => ?_⟩
  unfold step at hstep
  split at hstep
  · obtain ⟨k, hk⟩ := s.toStation.tick.noteChoice_frame s.tick.dueCommands
    cases hstep
    show Station.DriveKept s.toStation (s.tick.noteChoice s.tick.dueCommands)
    rw [hk]
    exact .inl rfl
  · rw [exec_eq_effectOf] at hstep
    cases hstep
    exact hs.driveKept_of_mute hst _

end Sys2Proof.Machine

/-! PROOF. Frames as bits and levels: what the fields of a frame hold, the stuffing as the receiver undoes it, and the
faults that the receiver finds. -/

namespace Sys2Proof.Machine

/-! ## Fields of a list of bits -/

@[simp] theorem fieldBits_length {w : Nat} (x : BitVec w) : (fieldBits x).length = w := by simp [fieldBits]

theorem bitsToNat_append_singleton (bits : List Bool) (b : Bool) :
    bitsToNat (bits ++ [b]) = 2 * bitsToNat bits + b.toNat := by
  simp [bitsToNat, List.foldl_append]

/-- The first `n` bits of a word, most significant first, spell the word without its lowest `w - n` bits. -/
theorem bitsToNat_first_bits {w : Nat} (x : BitVec w) {n : Nat} (hn : n ≤ w) :
    bitsToNat ((List.range n).map fun i => x.getMsbD i) = x.toNat / 2 ^ (w - n) := by
  induction n with
  | zero => simp [bitsToNat, Nat.div_eq_of_lt x.isLt]
  | succ n ih =>
    have hbit : (x.getMsbD n).toNat = x.toNat / 2 ^ (w - (n + 1)) % 2 := by
      rw [BitVec.getMsbD, decide_eq_true (by omega : n < w), Bool.true_and, BitVec.getLsbD, Nat.toNat_testBit,
        show w - 1 - n = w - (n + 1) by omega]
    have hdiv : x.toNat / 2 ^ (w - n) = x.toNat / 2 ^ (w - (n + 1)) / 2 := by
      rw [show w - n = w - (n + 1) + 1 by omega, pow_succ, Nat.div_div_eq_div_mul]
    rw [List.range_succ, List.map_append, List.map_singleton, bitsToNat_append_singleton, ih (by omega), hbit, hdiv]
    exact Nat.div_add_mod _ 2

theorem bitsToNat_fieldBits {w : Nat} (x : BitVec w) : bitsToNat (fieldBits x) = x.toNat := by
  rw [fieldBits, bitsToNat_first_bits x le_rfl, Nat.sub_self, pow_zero, Nat.div_one]

/-- A field is read back from where it stands. -/
theorem fieldAt_fieldBits {w n : Nat} {before : List Bool} (x : BitVec w) (after : List Bool) (h : before.length = n) :
    fieldAt w n (before ++ (fieldBits x ++ after)) = x := by
  rw [fieldAt, List.drop_left' h, List.take_left' (fieldBits_length x), bitsToNat_fieldBits, BitVec.ofNat_toNat,
    BitVec.setWidth_eq]

/-- A field behind `n` bits is counted from there. -/
theorem fieldAt_add {w n k : Nat} {before : List Bool} (bits : List Bool) (h : before.length = n) :
    fieldAt w (n + k) (before ++ bits) = fieldAt w k bits := by
  rw [fieldAt, ← h, List.drop_length_add_append, fieldAt]

/-- A field that lies within the first bits does not depend on the others. -/
theorem fieldAt_append_of_le {w n : Nat} {bits : List Bool} (h : n + w ≤ bits.length) (more : List Bool) :
    fieldAt w n (bits ++ more) = fieldAt w n bits := by
  rw [fieldAt, fieldAt, List.drop_append_of_le_length (by omega), List.take_append_of_le_length (by simp; omega)]

theorem fieldAt_take {w n m : Nat} (h : n + w ≤ m) (bits : List Bool) :
    fieldAt w n (bits.take m) = fieldAt w n bits := by
  rw [fieldAt, fieldAt, List.drop_take, List.take_take, Nat.min_eq_left (by omega)]

/-! ## The bits of a frame -/

/-- The bits of a frame with any check field. -/
def sentBits (f : Frame) (c : BitVec 16) : List Bool := false :: bodyBits f ++ fieldBits c

theorem frameBits_eq (f : Frame) : frameBits f = sentBits f (crc (bodyBits f)) := rfl

/-- Start bit, kind, sender and stamp, which every frame begins with (R26). -/
def headerBits (f : Frame) : List Bool :=
  false :: fieldBits f.payload.kind.code ++ fieldBits f.sender ++ fieldBits f.stamp

theorem sentBits_eq (f : Frame) (c : BitVec 16) :
    sentBits f c = headerBits f ++ (payloadBits f.payload ++ fieldBits c) := by
  simp [sentBits, headerBits, bodyBits]

@[simp] theorem headerBits_length (f : Frame) : (headerBits f).length = 33 := by simp [headerBits]

theorem fieldAt_kind (f : Frame) (c : BitVec 16) : fieldAt 3 1 (sentBits f c) = f.payload.kind.code := by
  simpa [sentBits, bodyBits] using
    fieldAt_fieldBits (before := [false]) f.payload.kind.code
      (fieldBits f.sender ++ (fieldBits f.stamp ++ (payloadBits f.payload ++ fieldBits c))) rfl

theorem fieldAt_sender (f : Frame) (c : BitVec 16) : fieldAt 5 4 (sentBits f c) = f.sender := by
  simpa [sentBits, bodyBits] using
    fieldAt_fieldBits (before := false :: fieldBits f.payload.kind.code) f.sender
      (fieldBits f.stamp ++ (payloadBits f.payload ++ fieldBits c)) (by simp)

theorem fieldAt_stamp (f : Frame) (c : BitVec 16) : fieldAt 24 9 (sentBits f c) = f.stamp := by
  simpa [sentBits, bodyBits] using
    fieldAt_fieldBits (before := false :: (fieldBits f.payload.kind.code ++ fieldBits f.sender)) f.stamp
      (payloadBits f.payload ++ fieldBits c) (by simp)

/-- A payload field stands behind the header and the payload fields before it. -/
theorem fieldAt_payload {f : Frame} {c : BitVec 16} {w n : Nat} (before : List Bool) (x : BitVec w) (after : List Bool)
    (hn : n = 33 + before.length) (h : payloadBits f.payload ++ fieldBits c = before ++ (fieldBits x ++ after)) :
    fieldAt w n (sentBits f c) = x := by
  rw [hn, sentBits_eq, fieldAt_add _ (headerBits_length f), h, fieldAt_fieldBits x after rfl]

/-- The kind demands the bits that are sent (R27). -/
theorem demandedBits_kind (f : Frame) (c : BitVec 16) :
    demandedBits f.payload.kind.code = some (sentBits f c).length := by
  rw [sentBits_eq]
  cases h : f.payload <;>
    simp [payloadBits, Payload.kind, FrameKind.code, demandedBits]

theorem demandedBits_ge {k : BitVec 3} {d : Nat} (h : demandedBits k = some d) : 49 ≤ d := by
  unfold demandedBits at h
  split_ifs at h <;> cases h <;> decide

theorem sentBits_length_ge (f : Frame) (c : BitVec 16) : 49 ≤ (sentBits f c).length :=
  demandedBits_ge (demandedBits_kind f c)

/-- The assigned kinds are none of the codes 5 and 6 (R27). -/
theorem kind_code_assigned (p : Payload) : p.kind.code ≠ 5#3 ∧ p.kind.code ≠ 6#3 := by
  have assigned : ∀ k : FrameKind, k.code ≠ 5#3 ∧ k.code ≠ 6#3 := fun k => by cases k <;> decide
  exact assigned p.kind

/-- The payload is read back, kind by kind (R27). -/
theorem decodePayload_sentBits (f : Frame) (c : BitVec 16) :
    decodePayload f.payload.kind.code (sentBits f c) = f.payload := by
  cases h : f.payload with
  | sight q p l cl =>
    have hq : fieldAt 8 33 (sentBits f c) = q :=
      fieldAt_payload [] q (fieldBits p ++ (fieldBits l ++ (fieldBits cl ++ fieldBits c))) (by simp)
        (by simp [h, payloadBits])
    have hp : fieldAt 24 41 (sentBits f c) = p :=
      fieldAt_payload (fieldBits q) p (fieldBits l ++ (fieldBits cl ++ fieldBits c)) (by simp)
        (by simp [h, payloadBits])
    have hl : fieldAt 2 65 (sentBits f c) = l :=
      fieldAt_payload (fieldBits q ++ fieldBits p) l (fieldBits cl ++ fieldBits c) (by simp) (by simp [h, payloadBits])
    have hc : fieldAt 4 67 (sentBits f c) = cl :=
      fieldAt_payload (fieldBits q ++ (fieldBits p ++ fieldBits l)) cl (fieldBits c) (by simp)
        (by simp [h, payloadBits])
    simp [decodePayload, Payload.kind, FrameKind.code, hq, hp, hl, hc]
  | verdict t v =>
    have ho : fieldAt 5 33 (sentBits f c) = t.origin :=
      fieldAt_payload [] t.origin (fieldBits t.seq ++ (fieldBits v ++ fieldBits c)) (by simp) (by simp [h, payloadBits])
    have hs : fieldAt 8 38 (sentBits f c) = t.seq :=
      fieldAt_payload (fieldBits t.origin) t.seq (fieldBits v ++ fieldBits c) (by simp) (by simp [h, payloadBits])
    have hv : fieldAt 2 46 (sentBits f c) = v :=
      fieldAt_payload (fieldBits t.origin ++ fieldBits t.seq) v (fieldBits c) (by simp) (by simp [h, payloadBits])
    simp [decodePayload, Payload.kind, FrameKind.code, ho, hs, hv]
  | yield q =>
    have hq : fieldAt 8 33 (sentBits f c) = q :=
      fieldAt_payload [] q (fieldBits c) (by simp) (by simp [h, payloadBits])
    simp [decodePayload, Payload.kind, FrameKind.code, hq]
  | claim q g p l =>
    have hq : fieldAt 8 33 (sentBits f c) = q :=
      fieldAt_payload [] q (fieldBits g ++ (fieldBits p ++ (fieldBits l ++ fieldBits c))) (by simp)
        (by simp [h, payloadBits])
    have hg : fieldAt 3 41 (sentBits f c) = g :=
      fieldAt_payload (fieldBits q) g (fieldBits p ++ (fieldBits l ++ fieldBits c)) (by simp) (by simp [h, payloadBits])
    have hp : fieldAt 24 44 (sentBits f c) = p :=
      fieldAt_payload (fieldBits q ++ fieldBits g) p (fieldBits l ++ fieldBits c) (by simp) (by simp [h, payloadBits])
    have hl : fieldAt 16 68 (sentBits f c) = l :=
      fieldAt_payload (fieldBits q ++ (fieldBits g ++ fieldBits p)) l (fieldBits c) (by simp) (by simp [h, payloadBits])
    simp [decodePayload, Payload.kind, FrameKind.code, hq, hg, hp, hl]
  | retire t =>
    have ho : fieldAt 5 33 (sentBits f c) = t.origin :=
      fieldAt_payload [] t.origin (fieldBits t.seq ++ fieldBits c) (by simp) (by simp [h, payloadBits])
    have hs : fieldAt 8 38 (sentBits f c) = t.seq :=
      fieldAt_payload (fieldBits t.origin) t.seq (fieldBits c) (by simp) (by simp [h, payloadBits])
    simp [decodePayload, Payload.kind, FrameKind.code, ho, hs]
  | mark => simp [decodePayload, Payload.kind, FrameKind.code]

theorem senderOf_of_sender {bits : List Bool} {o : Station5} (h : 9 ≤ bits.length) (ho : fieldAt 5 4 bits = o) :
    senderOf bits = some o := by
  rw [senderOf, if_pos h, ho]

/-- The check decides between the frame and a CHECK fault (R28, R32). -/
theorem judgeCheck_sentBits (f : Frame) (c : BitVec 16) :
    judgeCheck (sentBits f c) = if crc (bodyBits f) = c then .good f else .fault .check (some f.sender) := by
  have hlen := sentBits_length_ge f c
  have hcheck : fieldAt 16 ((sentBits f c).length - 16) (sentBits f c) = c := by
    have h := fieldAt_fieldBits (before := false :: bodyBits f) c [] rfl
    rw [List.append_nil] at h
    simpa [sentBits] using h
  have hbody : ((sentBits f c).drop 1).take ((sentBits f c).length - 17) = bodyBits f := by
    simp [sentBits]
  rw [judgeCheck, hcheck, hbody, fieldAt_sender, fieldAt_stamp, fieldAt_kind, decodePayload_sentBits,
    senderOf_of_sender (by omega) (fieldAt_sender f c)]

end Sys2Proof.Machine

/-! PROOF. The receiver on stuffed levels: it reads on as the stuffing goes, and where it stops. -/

namespace Sys2Proof.Machine

/-! ## Stuffing -/

variable {last b : Bool} {run : Nat} {acc bits rest : List Bool}

theorem stuffFrom_nil (h : run < 5) : stuffFrom last run [] = [] := by
  rw [stuffFrom, if_neg (by omega)]

theorem stuffFrom_cons (h : run < 5) :
    stuffFrom last run (b :: bits) = b :: stuffFrom b (if b = last then run + 1 else 1) bits := by
  rw [stuffFrom, if_neg (by omega)]

/-- After five equal levels comes a stuff bit, which begins a run of its own (R24). -/
theorem stuffFrom_five : stuffFrom last 5 bits = (!last) :: stuffFrom (!last) 1 bits := by
  cases bits <;> rfl

/-- The last level and the length of its run once bits have been sent, with the stuff bit that a run of five brings. -/
def lineAfter (last : Bool) (run : Nat) : List Bool → Bool × Nat
  | [] => if run = 5 then (!last, 1) else (last, run)
  | b :: bs =>
    if run = 5 then lineAfter b (if b = !last then 2 else 1) bs else lineAfter b (if b = last then run + 1 else 1) bs

theorem lineAfter_nil (h : run < 5) : lineAfter last run [] = (last, run) := by
  rw [lineAfter, if_neg (by omega)]

theorem lineAfter_cons (h : run < 5) :
    lineAfter last run (b :: bits) = lineAfter b (if b = last then run + 1 else 1) bits := by
  rw [lineAfter, if_neg (by omega)]

theorem lineAfter_five : lineAfter last 5 bits = lineAfter (!last) 1 bits := by
  cases bits <;> rfl

/-- What holds at the end of the bits, over one more bit, and over a stuff bit, holds of all stuffed bits. -/
theorem stuffed_induction {P : Bool → Nat → List Bool → Prop} (nil : ∀ last run, run < 5 → P last run [])
    (cons : ∀ last run b bits, run < 5 → P b (if b = last then run + 1 else 1) bits → P last run (b :: bits))
    (stuff : ∀ last bits, P (!last) 1 bits → P last 5 bits) (bits : List Bool) :
    ∀ {last : Bool} {run : Nat}, run ≤ 5 → P last run bits := by
  suffices h : ∀ last run, run < 5 → P last run bits by
    intro last run hrun
    rcases Nat.lt_or_eq_of_le hrun with hlt | rfl
    · exact h last run hlt
    · exact stuff last bits (h _ 1 (by omega))
  induction bits with
  | nil => exact nil
  | cons b bits ih =>
    intro last run hrun
    refine cons last run b bits hrun ?_
    by_cases hnext : (if b = last then run + 1 else 1) < 5
    · exact ih _ _ hnext
    · have hfive : (if b = last then run + 1 else 1) = 5 := by split_ifs at hnext ⊢ <;> omega
      rw [hfive]
      exact stuff b bits (ih _ 1 (by omega))

theorem lineAfter_run_lt (bits : List Bool) (h : run ≤ 5) : (lineAfter last run bits).2 < 5 := by
  refine stuffed_induction (P := fun last run bits => (lineAfter last run bits).2 < 5) ?_ ?_ ?_ bits h
  · intro last run hrun
    rwa [lineAfter_nil hrun]
  · intro last run b bits hrun ih
    rwa [lineAfter_cons hrun]
  · intro last bits ih
    rwa [lineAfter_five]

theorem stuffFrom_append (xs ys : List Bool) (h : run ≤ 5) :
    stuffFrom last run (xs ++ ys) =
      stuffFrom last run xs ++ stuffFrom (lineAfter last run xs).1 (lineAfter last run xs).2 ys := by
  refine stuffed_induction (P := fun last run xs => stuffFrom last run (xs ++ ys) =
      stuffFrom last run xs ++ stuffFrom (lineAfter last run xs).1 (lineAfter last run xs).2 ys) ?_ ?_ ?_ xs h
  · intro last run hrun
    rw [stuffFrom_nil hrun, lineAfter_nil hrun]
    rfl
  · intro last run b xs hrun ih
    rw [List.cons_append, stuffFrom_cons hrun, stuffFrom_cons hrun, lineAfter_cons hrun, ih]
    rfl
  · intro last xs ih
    rw [stuffFrom_five, stuffFrom_five, lineAfter_five, ih]
    rfl

/-! ## Six equal levels -/

/-- Equal levels within a shorter run of others and what follows it lie within what follows it. -/
theorem replicate_within_of_ne {n k : Nat} {a c : Bool} {ys : List Bool} (hc : c ≠ a) (hk : k < n)
    (h : List.replicate n b <:+: List.replicate k a ++ c :: ys) : List.replicate n b <:+: c :: ys := by
  induction k with
  | zero => exact h
  | succ k ih =>
    rw [List.replicate_succ, List.cons_append, List.infix_cons_iff] at h
    refine h.elim (fun hpre => ?_) (ih (by omega))
    exfalso
    have hlevel : ∀ i (hi : i < n), b = (a :: (List.replicate k a ++ c :: ys))[i]'(by
        have := hpre.length_le; simp at this ⊢; omega) := fun i hi => by
      have := hpre.getElem (i := i) (by simpa using hi)
      simpa using this
    have h₀ := hlevel 0 (by omega)
    have h₁ := hlevel (k + 1) hk
    simp at h₀ h₁
    exact hc (h₁.symm.trans h₀)

/-- The levels sent for any bits never hold six equal levels in a row (R24). -/
theorem no_six_stuffFrom (bits : List Bool) (b : Bool) (h : run ≤ 5) :
    ¬ List.replicate 6 b <:+: List.replicate run last ++ stuffFrom last run bits := by
  refine stuffed_induction (P := fun last run bits =>
    ¬ List.replicate 6 b <:+: List.replicate run last ++ stuffFrom last run bits) ?_ ?_ ?_ bits h
  · intro last run hrun hsix
    rw [stuffFrom_nil hrun] at hsix
    have := hsix.length_le
    simp at this
    omega
  · intro last run c bits hrun ih hsix
    rw [stuffFrom_cons hrun] at hsix
    by_cases hc : c = last
    · subst hc
      rw [if_pos rfl] at ih hsix
      rw [List.replicate_succ' (n := run), List.append_assoc] at ih
      exact ih hsix
    · rw [if_neg hc] at ih hsix
      exact ih (replicate_within_of_ne hc (by omega) hsix)
  · intro last bits ih hsix
    rw [stuffFrom_five] at hsix
    exact ih (replicate_within_of_ne (by simp) (by omega) hsix)

/-! ## The receiver, level by level -/

theorem receiveFrom_nil (h : allArrived acc = false ∨ run = 5) : receiveFrom acc last run [] = .unfinished := by
  unfold receiveFrom
  rcases h with h | h <;> simp [h]

theorem receiveFrom_arrived (h : allArrived acc = true) (hrun : run < 5) (levels : List Bool) :
    receiveFrom acc last run levels = judgeCheck acc := by
  unfold receiveFrom
  cases levels <;> simp [h, Nat.ne_of_lt hrun]

theorem receiveFrom_cons (h : allArrived acc = false) (hk : kindFault (acc ++ [b]) = false) (hrun : run < 5)
    (levels : List Bool) : receiveFrom acc last run (b :: levels) =
      receiveFrom (acc ++ [b]) b (if b = last then run + 1 else 1) levels := by
  rw [receiveFrom]
  simp [h, hk, Nat.ne_of_lt hrun]

theorem receiveFrom_kindFault (h : allArrived acc = false) (hk : kindFault (acc ++ [b]) = true) (hrun : run < 5)
    (levels : List Bool) : receiveFrom acc last run (b :: levels) = .fault .kind (senderOf (acc ++ [b])) := by
  rw [receiveFrom]
  simp [h, hk, Nat.ne_of_lt hrun]

theorem receiveFrom_stuff (levels : List Bool) :
    receiveFrom acc last 5 ((!last) :: levels) = receiveFrom acc (!last) 1 levels := by
  rw [receiveFrom]
  simp

theorem receiveFrom_short (levels : List Bool) :
    receiveFrom acc last 5 (last :: levels) = .fault .short (senderOf acc) := by
  rw [receiveFrom]
  simp

/-! ## The receiver on stuffed bits -/

/-- A receiver that has `acc` reads on through more bits: before each of them the frame goes on, and none of them is a
KIND fault. -/
def ReadsOn (acc : List Bool) : List Bool → Prop
  | [] => True
  | b :: bs => allArrived acc = false ∧ kindFault (acc ++ [b]) = false ∧ ReadsOn (acc ++ [b]) bs

theorem readsOn_of_forall (h : ∀ n, n < rest.length →
    allArrived (acc ++ rest.take n) = false ∧ kindFault (acc ++ rest.take (n + 1)) = false) : ReadsOn acc rest := by
  induction rest generalizing acc with
  | nil => trivial
  | cons b rest ih =>
    have h₀ := h 0 (by simp)
    refine ⟨by simpa using h₀.1, by simpa using h₀.2, ih fun n hn => ?_⟩
    simpa using h (n + 1) (by simpa using hn)

theorem ReadsOn.of_append {xs ys : List Bool} (h : ReadsOn acc (xs ++ ys)) : ReadsOn acc xs := by
  induction xs generalizing acc with
  | nil => trivial
  | cons b xs ih =>
    obtain ⟨h₁, h₂, h₃⟩ := h
    exact ⟨h₁, h₂, ih h₃⟩

/-- The receiver undoes the stuffing (R24). -/
theorem receiveFrom_stuffFrom (more : List Bool) (bits : List Bool) (h : run ≤ 5) (hgo : ReadsOn acc bits) :
    receiveFrom acc last run (stuffFrom last run bits ++ more) =
      receiveFrom (acc ++ bits) (lineAfter last run bits).1 (lineAfter last run bits).2 more := by
  refine stuffed_induction (P := fun last run bits => ∀ acc, ReadsOn acc bits →
    receiveFrom acc last run (stuffFrom last run bits ++ more) =
      receiveFrom (acc ++ bits) (lineAfter last run bits).1 (lineAfter last run bits).2 more) ?_ ?_ ?_ bits h acc hgo
  · intro last run hrun acc _
    rw [stuffFrom_nil hrun, lineAfter_nil hrun, List.append_nil, List.nil_append]
  · rintro last run b bits hrun ih acc ⟨ha, hk, hgo⟩
    rw [stuffFrom_cons hrun, List.cons_append, receiveFrom_cons ha hk hrun, ih _ hgo, lineAfter_cons hrun,
      List.append_assoc]
    rfl
  · intro last bits ih acc hgo
    rw [stuffFrom_five, List.cons_append, receiveFrom_stuff, ih acc hgo, lineAfter_five]

/-- Until the last level the frame goes on (R32). -/
theorem receiveFrom_take_stuffFrom (bits : List Bool) (h : run ≤ 5) (hgo : ReadsOn acc bits) {n : Nat}
    (hn : n < (stuffFrom last run bits).length) :
    receiveFrom acc last run ((stuffFrom last run bits).take n) = .unfinished := by
  refine stuffed_induction (P := fun last run bits => ∀ acc n, ReadsOn acc bits →
    n < (stuffFrom last run bits).length →
      receiveFrom acc last run ((stuffFrom last run bits).take n) = .unfinished) ?_ ?_ ?_ bits h acc n hgo hn
  · intro last run hrun acc n _ hn
    rw [stuffFrom_nil hrun] at hn
    cases hn
  · rintro last run b bits hrun ih acc n ⟨ha, hk, hgo⟩ hn
    rw [stuffFrom_cons hrun] at hn ⊢
    cases n with
    | zero => exact receiveFrom_nil (.inl ha)
    | succ n =>
      rw [List.take_succ_cons, receiveFrom_cons ha hk hrun]
      exact ih _ n hgo (by simpa using hn)
  · intro last bits ih acc n hgo hn
    rw [stuffFrom_five] at hn ⊢
    cases n with
    | zero => exact receiveFrom_nil (.inr rfl)
    | succ n =>
      rw [List.take_succ_cons, receiveFrom_stuff]
      exact ih acc n hgo (by simpa using hn)

/-! ## The receiver on equal levels -/

/-- Five equal levels, as bits or as the end of a run, and one more are SHORT. -/
theorem receiveFrom_run_full (more : List Bool) {j : Nat} (hrun : run + j = 5) (hgo : ReadsOn acc (List.replicate j b)) :
    receiveFrom acc b run (List.replicate (j + 1) b ++ more) =
      .fault .short (senderOf (acc ++ List.replicate j b)) := by
  induction j generalizing acc run with
  | zero =>
    obtain rfl : run = 5 := hrun
    rw [List.replicate_zero, List.append_nil]
    exact receiveFrom_short more
  | succ j ih =>
    obtain ⟨ha, hk, hgo⟩ := hgo
    rw [List.replicate_succ, List.cons_append, receiveFrom_cons ha hk (by omega), if_pos rfl, ih (by omega) hgo,
      List.replicate_succ, List.append_assoc]
    rfl

/-- Six equal levels are SHORT, once the bits among them have been read. -/
theorem receiveFrom_six (more : List Bool) (hrun : run < 5) (hgo : ReadsOn acc (List.replicate 5 b)) :
    ∃ j, 1 ≤ j ∧ j ≤ 5 ∧ receiveFrom acc last run (List.replicate 6 b ++ more) =
      .fault .short (senderOf (acc ++ List.replicate j b)) := by
  obtain ⟨ha, hk, hgo⟩ := hgo
  obtain ⟨j, hj⟩ : ∃ j, (if b = last then run + 1 else 1) + j = 5 := ⟨5 - (if b = last then run + 1 else 1), by
    split_ifs <;> omega⟩
  have hj4 : j ≤ 4 := by split_ifs at hj <;> omega
  refine ⟨j + 1, by omega, by omega, ?_⟩
  have hgo' : ReadsOn (acc ++ [b]) (List.replicate j b) := by
    refine ReadsOn.of_append (ys := List.replicate (4 - j) b) ?_
    rw [List.replicate_append_replicate, show j + (4 - j) = 4 by omega]
    exact hgo
  have hsplit : List.replicate 6 b ++ more = b :: (List.replicate (j + 1) b ++ (List.replicate (4 - j) b ++ more)) := by
    rw [← List.append_assoc, List.replicate_append_replicate, show j + 1 + (4 - j) = 5 by omega]
    rfl
  rw [hsplit, receiveFrom_cons ha hk hrun, receiveFrom_run_full _ hj hgo', List.append_assoc]
  rfl

/-! ## A frame that goes on -/

theorem judgeCheck_ne_unfinished (bits : List Bool) : judgeCheck bits ≠ .unfinished := by
  unfold judgeCheck
  split <;> simp

/-- A receiver that has read a level and goes on has it as the last level, at the end of a run. -/
theorem receiveFrom_cons_of_unfinished {levels : List Bool} (hrun : run ≤ 5)
    (h : receiveFrom acc last run (b :: levels) = .unfinished) :
    (b = last → run ≠ 5) ∧ ∃ acc', ∀ more, receiveFrom acc last run (b :: more) =
      receiveFrom acc' b (if b = last then run + 1 else 1) more := by
  rcases Nat.lt_or_eq_of_le hrun with hlt | rfl
  · cases ha : allArrived acc with
    | true =>
      rw [receiveFrom_arrived ha hlt] at h
      exact absurd h (judgeCheck_ne_unfinished acc)
    | false =>
      cases hk : kindFault (acc ++ [b]) with
      | true => rw [receiveFrom_kindFault ha hk hlt] at h; cases h
      | false => exact ⟨fun _ => hlt.ne, acc ++ [b], fun more => receiveFrom_cons ha hk hlt more⟩
  · have hne : b ≠ last := by
      rintro rfl
      rw [receiveFrom_short] at h
      cases h
    refine ⟨fun e => absurd e hne, acc, fun more => ?_⟩
    obtain rfl : b = !last := Bool.eq_not.mpr hne
    rw [receiveFrom_stuff, if_neg hne]

/-- A run that goes on has not passed five. -/
theorem receiveFrom_replicate_of_unfinished {n : Nat} (hrun : run ≤ 5)
    (h : receiveFrom acc b run (List.replicate n b) = .unfinished) :
    run + n ≤ 5 ∧ ∃ acc', ∀ more, receiveFrom acc b run (List.replicate n b ++ more) =
      receiveFrom acc' b (run + n) more := by
  induction n generalizing acc run with
  | zero => exact ⟨hrun, acc, fun _ => rfl⟩
  | succ n ih =>
    rw [List.replicate_succ] at h
    obtain ⟨hne, acc', hstep⟩ := receiveFrom_cons_of_unfinished hrun h
    rw [hstep, if_pos rfl] at h
    have hne := hne rfl
    obtain ⟨hle, acc'', hrest⟩ := ih (by omega) h
    refine ⟨by omega, acc'', fun more => ?_⟩
    rw [List.replicate_succ, List.cons_append, hstep, if_pos rfl, hrest, Nat.add_right_comm, Nat.add_assoc]

/-- Five equal levels at the end of a frame that goes on are a run of five, and a sixth is SHORT. -/
theorem receiveFrom_five_of_unfinished {levels : List Bool} (hrun : run ≤ 5)
    (h : receiveFrom acc last run (levels ++ List.replicate 5 b) = .unfinished) (more : List Bool) :
    ∃ o, receiveFrom acc last run (levels ++ List.replicate 5 b ++ b :: more) = .fault .short o := by
  induction levels generalizing acc last run with
  | nil =>
    obtain ⟨hne, acc', hstep⟩ := receiveFrom_cons_of_unfinished (levels := List.replicate 4 b) hrun h
    have h' := (hstep (List.replicate 4 b)).symm.trans h
    have hnext : (if b = last then run + 1 else 1) ≤ 5 := by
      split_ifs with e
      · have := hne e; omega
      · omega
    obtain ⟨hle, acc'', hrest⟩ := receiveFrom_replicate_of_unfinished hnext h'
    have hfive : (if b = last then run + 1 else 1) + 4 = 5 := by split_ifs at hle ⊢ <;> omega
    refine ⟨senderOf acc'', (hstep (List.replicate 4 b ++ b :: more)).trans ?_⟩
    rw [hrest, hfive]
    exact receiveFrom_short more
  | cons c levels ih =>
    obtain ⟨hne, acc', hstep⟩ := receiveFrom_cons_of_unfinished hrun h
    have h' := (hstep (levels ++ List.replicate 5 b)).symm.trans h
    have hnext : (if c = last then run + 1 else 1) ≤ 5 := by
      split_ifs with e
      · have := hne e; omega
      · omega
    obtain ⟨o, ho⟩ := ih hnext h'
    exact ⟨o, (hstep _).trans ho⟩

end Sys2Proof.Machine

/-! PROOF. Sent frames come back, and broken ones are found. -/

namespace Sys2Proof.Machine

/-! ## Bits that are not yet a frame -/

theorem not_allArrived_of_short {bits : List Bool} (h : bits.length < 49) : allArrived bits = false := by
  unfold allArrived
  rw [Bool.and_eq_false_iff]
  refine .inr (beq_false_of_ne fun hd => ?_)
  have := demandedBits_ge hd
  omega

theorem not_allArrived_of_kind {bits : List Bool} {k : BitVec 3} (hk : fieldAt 3 1 bits = k)
    (h : demandedBits k ≠ some bits.length) : allArrived bits = false := by
  unfold allArrived
  rw [hk, beq_false_of_ne h, Bool.and_false]

theorem allArrived_sentBits (f : Frame) (c : BitVec 16) : allArrived (sentBits f c) = true := by
  have := sentBits_length_ge f c
  unfold allArrived
  rw [fieldAt_kind, demandedBits_kind f c, beq_self_eq_true, Bool.and_true, decide_eq_true_eq]
  omega

theorem not_kindFault_of_length {bits : List Bool} (h : bits.length ≠ 9) : kindFault bits = false := by
  unfold kindFault
  rw [beq_false_of_ne h, Bool.false_and]

/-- The kind of a sent frame is an assigned one (R27). -/
theorem not_kindFault_of_kind {bits : List Bool} {p : Payload} (h : fieldAt 3 1 bits = p.kind.code) :
    kindFault bits = false := by
  obtain ⟨h5, h6⟩ := kind_code_assigned p
  unfold kindFault
  rw [h, beq_false_of_ne h5, beq_false_of_ne h6, Bool.or_self, Bool.and_false]

/-- The first bits of a sent frame, and levels that follow them in its place, end no frame and are no KIND fault while bits
of the frame are outstanding. -/
theorem sent_take_goes_on (f : Frame) (c : BitVec 16) {n : Nat} (hn : n ≤ (sentBits f c).length) (more : List Bool)
    (hmore : n < 4 → more.length ≤ 5) :
    (n + more.length < (sentBits f c).length → allArrived ((sentBits f c).take n ++ more) = false) ∧
      kindFault ((sentBits f c).take n ++ more) = false := by
  have hlen : ((sentBits f c).take n ++ more).length = n + more.length := by simp [hn]
  rcases Nat.lt_or_ge n 4 with h4 | h4
  · have hm := hmore h4
    exact ⟨fun _ => not_allArrived_of_short (by omega), not_kindFault_of_length (by omega)⟩
  · have hkind : fieldAt 3 1 ((sentBits f c).take n ++ more) = f.payload.kind.code := by
      rw [fieldAt_append_of_le (by simp; omega), fieldAt_take (by omega), fieldAt_kind]
    refine ⟨fun hlt => not_allArrived_of_kind hkind ?_, not_kindFault_of_kind hkind⟩
    rw [demandedBits_kind f c, hlen]
    simp only [ne_eq, Option.some.injEq]
    omega

/-! ## Whole frames -/

theorem sentBits_readsOn (f : Frame) (c : BitVec 16) : ReadsOn [] (sentBits f c) := by
  refine readsOn_of_forall fun n hn => ?_
  have h := sent_take_goes_on f c hn.le [] (by simp)
  have h' := sent_take_goes_on f c (n := n + 1) hn [] (by simp)
  simp only [List.append_nil, List.length_nil, Nat.add_zero] at h h'
  exact ⟨h.1 hn, h'.2⟩

/-- A frame that has been sent whole is judged by its check (R28, R32). -/
theorem receive_sentBits (f : Frame) (c : BitVec 16) :
    receive (stuffFrom true 0 (sentBits f c)) =
      if crc (bodyBits f) = c then .good f else .fault .check (some f.sender) := by
  have hstuff := receiveFrom_stuffFrom (last := true) [] (sentBits f c) (by omega : 0 ≤ 5) (sentBits_readsOn f c)
  rw [List.append_nil, List.nil_append] at hstuff
  rw [receive, hstuff, receiveFrom_arrived (allArrived_sentBits f c) (lineAfter_run_lt _ (by omega)),
    judgeCheck_sentBits]

/-- Settles O18: the receiver undoes the stuffing and reads every field back, and the stuffing breaks every run after
five. -/
theorem sentFramesAreReceived : Obligations.SentFramesAreReceived := by
  refine ⟨fun f => ?_, fun f b => ?_⟩
  · rw [frameLevels, frameBits_eq, receive_sentBits, if_pos rfl]
  · exact no_six_stuffFrom (last := true) (run := 0) (frameBits f) b (by omega)

/-! ## Broken frames -/

/-- The ninth bit decides a KIND fault, whatever follows (R32). -/
theorem receive_kindFault (k : BitVec 3) (o : Station5) (rest : List Bool) (hk : k = 5 ∨ k = 6) :
    receive (stuffFrom true 0 (false :: fieldBits k ++ fieldBits o) ++ rest) = .fault .kind (some o) := by
  generalize hbits : false :: fieldBits k ++ fieldBits o = bits
  have hlen : bits.length = 9 := by rw [← hbits]; simp
  have hkind : fieldAt 3 1 bits = k := by
    rw [← hbits]
    exact fieldAt_fieldBits (before := [false]) k (fieldBits o) rfl
  have hsender : fieldAt 5 4 bits = o := by
    have h := fieldAt_fieldBits (n := 4) (before := false :: fieldBits k) o [] (by simp)
    rw [← hbits]
    simpa using h
  have hfault : kindFault bits = true := by
    unfold kindFault
    rw [hlen, hkind]
    rcases hk with rfl | rfl <;> decide
  have hne : bits ≠ [] := List.ne_nil_of_length_pos (by omega)
  obtain ⟨xs, b, rfl⟩ : ∃ xs b, bits = xs ++ [b] := ⟨_, _, (List.dropLast_append_getLast hne).symm⟩
  have hxs : xs.length = 8 := by simpa using hlen
  have hgo : ReadsOn [] xs := readsOn_of_forall fun n hn =>
    ⟨not_allArrived_of_short (by simp; omega), not_kindFault_of_length (by simp; omega)⟩
  have hrun := lineAfter_run_lt (last := true) (run := 0) xs (by omega)
  rw [receive, stuffFrom_append xs [b] (by omega), stuffFrom_cons hrun, List.append_assoc,
    receiveFrom_stuffFrom _ xs (by omega) hgo, List.nil_append, List.cons_append,
    receiveFrom_kindFault (not_allArrived_of_short (by omega)) hfault hrun, senderOf_of_sender (by omega) hsender]

/-- Six equal levels after the first `n` bits of a frame are SHORT (R24, R32). -/
theorem receive_six (f : Frame) {n : Nat} (b : Bool) (rest : List Bool) (hn : n + 6 ≤ (frameBits f).length) :
    ∃ j, 1 ≤ j ∧ j ≤ 5 ∧ receive (stuffFrom true 0 ((frameBits f).take n) ++ List.replicate 6 b ++ rest) =
      .fault .short (senderOf ((frameBits f).take n ++ List.replicate j b)) := by
  rw [frameBits_eq] at *
  have hgo : ReadsOn [] ((sentBits f (crc (bodyBits f))).take n) :=
    ReadsOn.of_append (ys := (sentBits f (crc (bodyBits f))).drop n) (by
      rw [List.take_append_drop]
      exact sentBits_readsOn f _)
  have hfive : ReadsOn ((sentBits f (crc (bodyBits f))).take n) (List.replicate 5 b) := readsOn_of_forall fun m hm => by
    simp only [List.length_replicate] at hm
    have h := fun j => sent_take_goes_on f (crc (bodyBits f)) (n := n) (by omega)
      ((List.replicate 5 b).take j) (by simp)
    exact ⟨(h m).1 (by simp; omega), (h (m + 1)).2⟩
  rw [receive, List.append_assoc, receiveFrom_stuffFrom _ _ (by omega) hgo, List.nil_append]
  exact receiveFrom_six rest (lineAfter_run_lt _ (by omega)) hfive

/-- Settles O19: each fault is found at the level that shows it, and until then the frame goes on. -/
theorem brokenFramesAreFound : Obligations.BrokenFramesAreFound := by
  refine ⟨fun f c hc => ?_, fun k o rest hk => receive_kindFault k o rest hk, fun f n hn => ?_,
    fun levels b rest h => receiveFrom_five_of_unfinished (by omega) h rest, fun rest => rfl,
    fun f n b rest _ hn => ?_⟩
  · exact (receive_sentBits f c).trans (if_neg hc.symm)
  · exact receiveFrom_take_stuffFrom _ (by omega) (sentBits_readsOn f _) hn
  · obtain ⟨j, -, hj, heq⟩ := receive_six f b rest hn
    have hlen : ((frameBits f).take n ++ List.replicate j b).length = n + j := by simp; omega
    refine ⟨_, heq, fun h9 => senderOf_of_sender (by omega) ?_, fun h3 => if_neg (by omega)⟩
    rw [fieldAt_append_of_le (by simp; omega), fieldAt_take (by omega), frameBits_eq, fieldAt_sender]

end Sys2Proof.Machine

/-! PROOF. Failed attempts: the counts, the 4th failure of a frame, the 16th of the station, and what is handed back. -/

namespace Sys2Proof.Machine

namespace Station

variable {s : Station}

/-! ## A frame handed back -/

theorem find_wants_eq_none {q : Seq8} (h : ∀ f ∈ s.agenda, f.claim ≠ .wanted q) :
    s.agenda.find? (Entry.wants q) = none :=
  List.find?_eq_none.mpr fun f hf => by simpa [Entry.wants] using h f hf

theorem loseClaim_of_none {q : Seq8} (h : s.agenda.find? (Entry.wants q) = none) (r : LossReason) :
    s.loseClaim q r = s := by
  unfold Station.loseClaim
  rw [h]

theorem loseClaim_of_some {q : Seq8} {f : Entry} (h : s.agenda.find? (Entry.wants q) = some f) (r : LossReason) :
    s.loseClaim q r =
      { s with agenda := settleFirst q .lost s.agenda,
               events := s.eventsWith (windowLost f.item f.template
                 (some { origin := s.settings.stationNumber, seq := q }) r) } := by
  unfold Station.loseClaim
  rw [h]
  rfl

variable {e : TxEntry}

theorem handBack_of_claim {q : Seq8} {g : BitVec 3} {p : Pos} {l : BitVec 16} (h : e.payload = .claim q g p l)
    (flushed : Bool) : s.handBack flushed e = s.loseClaim q (if flushed then .flushed else .sendFailed) := by
  unfold Station.handBack
  rw [h]

/-- A SIGHT that fails leaves no record, and a flushed one is lost with FLUSHED (R74). -/
theorem handBack_of_sight {q : Seq8} {p : Pos} {l : BitVec 2} {c : BitVec 4} (h : e.payload = .sight q p l c) :
    s.handBack false e = s ∧ s.handBack true e = s.addRecord
      { kind := .sightLost, item := some { origin := s.settings.stationNumber, seq := q }, reason := some 2 } := by
  unfold Station.handBack
  rw [h]
  exact ⟨rfl, rfl⟩

theorem handBack_of_other (hs : e.payload.kind ≠ .sight) (hc : e.payload.kind ≠ .claim) (flushed : Bool) :
    s.handBack flushed e = s := by
  unfold Station.handBack
  split
  · next h => rw [h] at hc; exact absurd rfl hc
  · next h => rw [h] at hs; exact absurd rfl hs
  all_goals rfl

/-- A frame that no entry waits for leaves nothing behind at its 4th failure. -/
theorem handBack_of_unwanted (h : ∀ q g p l, e.payload = .claim q g p l → ∀ f ∈ s.agenda, f.claim ≠ .wanted q) :
    s.handBack false e = s := by
  by_cases hs : e.payload.kind = .sight
  · cases hp : e.payload with
    | sight q p l c => exact (handBack_of_sight hp).1
    | _ => rw [hp] at hs; cases hs
  · by_cases hc : e.payload.kind = .claim
    · cases hp : e.payload with
      | claim q g p l => rw [handBack_of_claim hp, loseClaim_of_none (find_wants_eq_none (h q g p l hp))]
      | _ => rw [hp] at hc; cases hc
    · exact handBack_of_other hs hc false

theorem foldl_handBack_frame (flushed : Bool) (es : List TxEntry) (s : Station) :
    ∃ ag ev, es.foldl (Station.handBack flushed) s = { s with agenda := ag, events := ev } := by
  refine foldl_induct (P := fun t => ∃ ag ev, t = { s with agenda := ag, events := ev }) ?_ ⟨s.agenda, s.events, rfl⟩
  rintro x _ _ ⟨ag, ev, rfl⟩
  obtain ⟨ag', ev', h⟩ := handBack_frame flushed { s with agenda := ag, events := ev } x
  exact ⟨ag', ev', h⟩

/-! ## The count of failures -/

theorem countFailure_of_lt (h : s.link.fails < 15) : s.countFailure = { s with link.fails := s.link.fails + 1 } :=
  if_pos (by simp only [Config.failuresToMute]; omega)

/-- Entry to MUTE by the 16th failure: the flush hands the queue back, in queue order, behind STATE_CHANGE (R38, R61). -/
theorem countFailure_of_last (h : s.link.fails = 15) (hin : s.ctl.state.inService = true) :
    s.countFailure = s.link.txq.foldl (Station.handBack true)
      { s with link := { s.link with txq := [], fails := 0, mark := .stopped, goodRun := 0 },
               ctl := { s.ctl with state := .mute, resume := s.ctl.state.toResume },
               events := s.eventsWith (stateChange s.ctl.state .mute .sendFailures) } := by
  unfold Station.countFailure
  rw [if_neg (by rw [h]; decide), if_pos hin]
  rfl

theorem failHead_of_retry (h : e.attempts < 3) : s.failHead e = Station.countFailure
    { s with link.txq := { e with attempts := e.attempts + 1, inFlight := false } :: s.link.txq.tail } := by
  unfold Station.failHead
  rw [if_pos (by simp only [Config.attemptsPerFrame]; omega)]

theorem failHead_of_last (h : 3 ≤ e.attempts) : s.failHead e = (s.dropHead e).countFailure := by
  unfold Station.failHead
  rw [if_neg (by simp only [Config.attemptsPerFrame]; omega)]

/-! ## A failed attempt by either way -/

/-- What a failed attempt leaves on the line, and the records before it: nothing of a reject slot, the break and BIT_CLASH
of a clash (R31, R36). -/
def Fails (s : Station) (e : TxEntry) (c : Instr) (d : LinkDrive) (ev : List EventRecord) : Prop :=
  c = .failedAttempt ∧ d = .released ∧ ev = s.events ∨
    c = .bitClash ∧ d = .breaks ∧ ev = s.eventsWith (frameFields .bitClash s.settings.stationNumber e.payload)

variable {es : List TxEntry} {c : Instr} {d : LinkDrive} {ev : List EventRecord}

theorem Fails.effect (h : s.Fails e c d ev) (hq : s.link.txq = e :: es) (he : e.inFlight = true) :
    effectOf c s = ({ s with link.drive := d, events := ev } : Station).failHead e := by
  rcases h with ⟨rfl, rfl, rfl⟩ | ⟨rfl, rfl, rfl⟩
  · show s.attemptFails = _
    unfold Station.attemptFails
    rw [hq]
    exact if_pos he
  · show s.findBitClash = _
    unfold Station.findBitClash
    rw [hq]
    exact if_pos he

/-- A failure that is not the frame's 4th, before the count of the station's failures (R36). -/
theorem Fails.retried (h : s.Fails e c d ev) (hq : s.link.txq = e :: es) (he : e.inFlight = true)
    (ha : e.attempts < 3) :
    effectOf c s = Station.countFailure
      { s with link.txq := { e with attempts := e.attempts + 1, inFlight := false } :: es, link.drive := d,
               events := ev } := by
  obtain rfl : es = s.link.txq.tail := by rw [hq]; rfl
  exact (h.effect hq he).trans (failHead_of_retry ha)

/-- The station once the head `e` has left its queue with SEND_FAILED, behind the records `ev` (R37). -/
def withoutHead (s : Station) (e : TxEntry) (es : List TxEntry) (d : LinkDrive) (ev : List EventRecord) : Station :=
  { s with
    link.txq := es, link.drive := d,
    events := pushEvent { fields := frameFields .sendFailed s.settings.stationNumber e.payload, pos := s.pos.count,
                          lostAfter := false } ev }

/-- A frame's 4th failure, before the count of the station's failures: the head leaves and is handed back (R37). -/
theorem Fails.dropped (h : s.Fails e c d ev) (hq : s.link.txq = e :: es) (he : e.inFlight = true)
    (ha : 3 ≤ e.attempts) : effectOf c s = ((s.withoutHead e es d ev).handBack false e).countFailure := by
  obtain rfl : es = s.link.txq.tail := by rw [hq]; rfl
  exact (h.effect hq he).trans (failHead_of_last ha)

end Station

/-- Settles O14: a failure by either way that is neither the frame's 4th nor the station's 16th. -/
theorem failedAttemptsAreCounted : Obligations.FailedAttemptsAreCounted := by
  intro s e es hq he ha hf
  have counted := fun c d ev (h : s.toStation.Fails e c d ev) =>
    (h.retried hq he ha).trans (Station.countFailure_of_lt hf)
  exact ⟨exec_of_effect (counted _ _ _ (.inl ⟨rfl, rfl, rfl⟩)), exec_of_effect (counted _ _ _ (.inr ⟨rfl, rfl, rfl⟩))⟩

/-- Settles O15: the head leaves with SEND_FAILED, and the hand-back finds an entry that waits for its CLAIM or none. -/
theorem fourthFailureDropsTheFrame : Obligations.FourthFailureDropsTheFrame := by
  intro s e es c d ev hq he ha hf hc
  have hdrop := Station.Fails.dropped (s := s.toStation) hc hq he ha.ge
  refine ⟨fun hw => exec_of_effect (hdrop.trans ?_), fun q g p l f hp hfind => exec_of_effect (hdrop.trans ?_)⟩
  · rw [Station.handBack_of_unwanted (s := s.toStation.withoutHead e es d ev) hw]
    exact Station.countFailure_of_lt hf
  · rw [Station.handBack_of_claim hp, Station.loseClaim_of_some (s := s.toStation.withoutHead e es d ev) hfind]
    exact Station.countFailure_of_lt hf

namespace Station

variable {s : Station} {e : TxEntry} {es : List TxEntry} {c : Instr} {d : LinkDrive} {ev : List EventRecord}

/-- The station in MUTE before the flush, apart from its records (R61). -/
def muted (s : Station) (d : LinkDrive) : Station :=
  { s with
    link := { s.link with txq := [], fails := 0, mark := .stopped, goodRun := 0, drive := d }
    ctl := { s.ctl with state := .mute, resume := if s.ctl.state = .active then some .active else some .settling } }

theorem toResume_eq (h : s.ctl.state = .settling ∨ s.ctl.state = .active) :
    s.ctl.state.toResume = if s.ctl.state = .active then some .active else some .settling := by
  rcases h with h | h <;> rw [h] <;> rfl

/-- The 16th failure that leaves the frame in the queue flushes it with the rest. -/
theorem Fails.muted_retry (h : s.Fails e c d ev) (hq : s.link.txq = e :: es) (he : e.inFlight = true)
    (ha : e.attempts < 3) (hf : s.link.fails = 15) (hst : s.ctl.state = .settling ∨ s.ctl.state = .active) :
    effectOf c s = (e :: es).foldl (Station.handBack true)
      { s.muted d with events := pushEvent { fields := stateChange s.ctl.state .mute .sendFailures, pos := s.pos.count,
                                             lostAfter := false } ev } := by
  refine ((h.retried hq he ha).trans (countFailure_of_last hf ((StationState.inService_iff _).mpr hst))).trans ?_
  rw [muted, ← toResume_eq hst]
  exact congrArg (es.foldl _) (handBack_payload rfl true _)

/-- The 16th failure that is the frame's 4th too: the hand-back comes before STATE_CHANGE and the flush. -/
theorem Fails.muted_dropped (h : s.Fails e c d ev) (hq : s.link.txq = e :: es) (he : e.inFlight = true)
    (ha : 3 ≤ e.attempts) (hf : s.link.fails = 15) (hst : s.ctl.state = .settling ∨ s.ctl.state = .active) {u : Station}
    (hu : u = ({ s with
      events := pushEvent { fields := frameFields .sendFailed s.settings.stationNumber e.payload, pos := s.pos.count,
                            lostAfter := false } ev } : Station).handBack false e) :
    effectOf c s = es.foldl (Station.handBack true)
      { s.muted d with
        agenda := u.agenda
        events := pushEvent { fields := stateChange s.ctl.state .mute .sendFailures, pos := s.pos.count,
                              lostAfter := false } u.events } := by
  obtain ⟨ag, ev', hback⟩ := handBack_frame false { s with
    events := pushEvent { fields := frameFields .sendFailed s.settings.stationNumber e.payload, pos := s.pos.count,
                          lostAfter := false } ev } e
  have hlink := handBack_link_ctl false { s with
    events := pushEvent { fields := frameFields .sendFailed s.settings.stationNumber e.payload, pos := s.pos.count,
                          lostAfter := false } ev } { s.link with txq := es, drive := d } s.ctl e
  rw [hback] at hu hlink
  refine ((h.dropped hq he ha).trans (congrArg Station.countFailure hlink)).trans ?_
  rw [hu, muted, ← toResume_eq hst]
  exact countFailure_of_last (s := { s with link := { s.link with txq := es, drive := d }, agenda := ag, events := ev' })
    hf ((StationState.inService_iff _).mpr hst)

end Station

/-- Settles O16: the 16th failure with and without the frame's 4th, the frame of the flush, and the hand-back by kind. -/
theorem sixteenthFailureEntersMute : Obligations.SixteenthFailureEntersMute := by
  refine ⟨fun s e es c d ev m u hq he hf hst hc hm hu => ?_, fun s e flushed => ⟨fun q p l c hp =>
    Station.handBack_of_sight hp, fun q g p l hp => ⟨fun hw => ?_, fun f hfind => ?_⟩, fun hs hc =>
    Station.handBack_of_other hs hc flushed⟩⟩
  · have hc : s.toStation.Fails e c d ev := hc
    have hm : m = s.toStation.muted d := hm
    subst hm
    have hretry := fun ha => hc.muted_retry hq he ha hf hst
    have hlast := fun ha => hc.muted_dropped hq he ha hf hst hu
    refine ⟨fun ha => exec_of_effect (hretry ha), fun ha => exec_of_effect (hlast ha.ge), _, exec_eq_effectOf c s, rfl, ?_⟩
    have hframe : ∃ ag ev, effectOf c s.toStation = { s.toStation.muted d with agenda := ag, events := ev } := by
      rcases Nat.lt_or_ge e.attempts 3 with ha | ha
      · rw [hretry ha]
        obtain ⟨ag, ev', h⟩ := Station.foldl_handBack_frame true (e :: es) { s.toStation.muted d with events := _ }
        exact ⟨ag, ev', h⟩
      · rw [hlast ha]
        obtain ⟨ag, ev', h⟩ := Station.foldl_handBack_frame true es
          { s.toStation.muted d with agenda := u.agenda, events := _ }
        exact ⟨ag, ev', h⟩
    obtain ⟨ag, ev', heq⟩ := hframe
    rw [heq]
    exact ⟨rfl, rfl, rfl, rfl, rfl, rfl, rfl, rfl, rfl, rfl, rfl⟩
  · rw [Station.handBack_of_claim hp, Station.loseClaim_of_none (Station.find_wants_eq_none hw)]
  · rw [Station.handBack_of_claim hp, Station.loseClaim_of_some hfind]
    cases flushed <;> rfl

end Sys2Proof.Machine

/-! PROOF. Faulty and rejected frames, the timers, the order of a take's steps, and the ways out of MUTE. -/

namespace Sys2Proof.Machine

namespace Station

variable {s : Station}

/-! ## Faulty and rejected frames -/

theorem judgeLevels_of_fault {levels : List Bool} {r : FaultReason} {o : Option Station5} (hon : s.receiverOn = true)
    (hr : s.link.receiving = true) (h : receive levels = .fault r o) : s.judgeLevels levels = s.refuseFrame r o := by
  unfold Station.judgeLevels
  rw [hon, hr, h]
  rfl

theorem judgeLevels_of_not (h : s.receiverOn = false ∨ s.link.receiving = false) (levels : List Bool) :
    s.judgeLevels levels = s := by
  unfold Station.judgeLevels
  rcases h with h | h <;> simp [h]

theorem refusal_eq (r : FaultReason) : r.refusal = if r = .check then LinkDrive.reject else .breaks := by
  cases r <;> rfl

end Station

/-- Settles O17: the refusal by reason and state, and the two events that refuse nothing. -/
theorem faultyFramesAreRefused : Obligations.FaultyFramesAreRefused := by
  refine ⟨fun s levels r o hon hr h => exec_of_effect ?_, fun s hon => exec_of_effect (if_pos hon),
    fun s levels h => exec_of_effect_self (Station.judgeLevels_of_not h levels)⟩
  rw [← Station.refusal_eq]
  exact Station.judgeLevels_of_fault hon hr h

namespace Station

variable {s : Station}

/-! ## The timers -/

theorem markExpires_of_stopped (h : s.link.mark = .stopped) : s.markExpires = s := if_pos h

theorem markExpires_of_ownTaken (h : s.link.mark ≠ .stopped) (ho : s.link.ownTaken = true) :
    s.markExpires = { s with link.ownTaken := false } := by
  rw [Station.markExpires, if_neg h, if_pos ho]

theorem pushTx_of_empty (h : s.link.txq = []) (p : Payload) (o : TxOrigin) :
    s.pushTx p o = { s with link.txq := [{ payload := p, attempts := 0, origin := o, inFlight := false }] } := by
  rw [Station.pushTx, h]
  rfl

theorem markExpires_of_empty (h : s.link.mark ≠ .stopped) (ho : s.link.ownTaken = false) (hq : s.link.txq = []) :
    s.markExpires =
      { s with link.txq := [{ payload := .mark, attempts := 0, origin := .link, inFlight := false }],
               link.mark := s.fullMark } := by
  rw [Station.markExpires, if_neg h, ho, if_neg Bool.false_ne_true, if_pos (by rw [hq]; rfl), startMark_eq,
    pushTx_of_empty hq]
  rfl

theorem markExpires_of_running (h : s.link.mark ≠ .stopped) (ho : s.link.ownTaken = false) (hq : s.link.txq ≠ []) :
    s.markExpires = { s with link.mark := s.fullMark } := by
  rw [Station.markExpires, if_neg h, ho, if_neg Bool.false_ne_true, if_neg (by simpa using hq), startMark_eq]

theorem joinExpires_of_joining (h : s.ctl.state = .joining) :
    s.joinExpires = { s with ctl.state := .settling, ctl.join := .stopped, ctl.settleStart := some s.pos.count,
                             link.mark := s.fullMark,
                             events := s.eventsWith (stateChange .joining .settling .joinTimeout) } := by
  rw [Station.joinExpires, if_pos h, Station.enterSettling, startMark_eq, ← h]
  rfl

theorem joinExpires_of_not (h : s.ctl.state ≠ .joining) : s.joinExpires = s := if_neg h

/-! ## The take of the own frame -/

variable {e : TxEntry} {es : List TxEntry}

/-- The own frame's bookkeeping (R35). -/
theorem takeOwn_eq (hq : s.link.txq = e :: es) : s.frameOver.takeOwn =
    { s with link.receiving := false, link.drive := .released, link.txq := es, link.fails := 0, link.ownTaken := true,
             link.mark := s.fullMark } := by
  rw [Station.takeOwn, startMark_eq, ← List.tail_cons (a := e) (as := es), ← hq]
  rfl

/-- The own head is taken with the own number and the capture as stamp, whatever frame the command carries (R11, R35;
log 8). -/
theorem takeFrame_of_own (hon : s.receiverOn = true) (hq : s.link.txq = e :: es) (he : e.inFlight = true) (f : Frame) :
    s.takeFrame f = s.frameOver.takeOwn.applyFrame true
      { sender := s.settings.stationNumber, stamp := s.pos.capture, payload := e.payload } := by
  unfold Station.takeFrame Station.ownFrame
  rw [hon, hq]
  simp [he]

theorem takeFrame_of_off (h : s.receiverOn = false) (f : Frame) : s.takeFrame f = s := by
  unfold Station.takeFrame
  rw [h]
  rfl

theorem ownFrame_of_not (h : s.headInFlight = false) : s.ownFrame = none := by
  unfold Station.ownFrame
  unfold Station.headInFlight at h
  split
  · rfl
  · next hq => rw [hq] at h; simpa using h

theorem takeFrame_of_nothing (h : s.headInFlight = false) (hr : s.link.receiving = false) (f : Frame) :
    s.takeFrame f = s := by
  unfold Station.takeFrame
  rw [ownFrame_of_not h, hr]
  split <;> rfl

theorem applyFrame_ownTaken (own : Bool) (f : Frame) : (s.applyFrame own f).link.ownTaken = s.link.ownTaken := by
  obtain ⟨tr, ag, cl, k, ch, q, ev, m, h⟩ := (s.purge f.stamp).applyKind_frame own f
  rw [Station.applyFrame, h]
  rfl

/-- A station with its head in flight has a queue that begins with that head. -/
theorem exists_head_of_inFlight (h : s.headInFlight = true) : ∃ e es, s.link.txq = e :: es ∧ e.inFlight = true := by
  unfold Station.headInFlight at h
  cases hq : s.link.txq with
  | nil => rw [hq] at h; cases h
  | cons e es => rw [hq] at h; exact ⟨e, es, rfl, h⟩

/-- The take of the own frame does not look at the mark timer or at the mark of an earlier take. -/
theorem takeFrame_own_timer (hon : s.receiverOn = true) (hq : s.link.txq = e :: es) (he : e.inFlight = true) (f : Frame)
    (m : Timer) (o : Bool) :
    ({ s with link.mark := m, link.ownTaken := o } : Station).takeFrame f = s.takeFrame f := by
  rw [takeFrame_of_own hon hq he, takeFrame_of_own (s := { s with link.mark := m, link.ownTaken := o }) hon hq he,
    takeOwn_eq hq, takeOwn_eq (s := { s with link.mark := m, link.ownTaken := o }) hq]
  rfl

end Station

/-- Settles O20: each timer's expiry by its guard, and the two orders of an expiry and an own take. -/
theorem timersExpire : Obligations.TimersExpire := by
  intro s
  refine ⟨fun hm ho hq => exec_of_effect (Station.markExpires_of_empty hm ho hq),
    fun hm ho hq => exec_of_effect (Station.markExpires_of_running hm ho hq), fun ho hm => exec_of_effect (Station.markExpires_of_ownTaken hm ho), fun f t hon hf ht => ?_,
    fun hm => exec_of_effect_self (Station.markExpires_of_stopped hm),
    fun hst => exec_of_effect (Station.joinExpires_of_joining hst),
    fun hst => exec_of_effect_self (Station.joinExpires_of_not hst)⟩
  obtain ⟨e, es, hq, he⟩ := Station.exists_head_of_inFlight hf
  rw [exec_eq_effectOf] at ht
  cases ht
  have hown : (s.toStation.takeFrame f).link.ownTaken = true := by
    rw [Station.takeFrame_of_own hon hq he, Station.applyFrame_ownTaken]
    rfl
  refine ⟨hown, ?_, fun u hu => ?_⟩
  · split
    · next hm => exact exec_of_effect_self (Station.markExpires_of_stopped hm)
    · next hm => exact exec_of_effect (Station.markExpires_of_ownTaken hm hown)
  · rw [exec_eq_effectOf] at hu
    cases hu
    obtain ⟨m, o, heq⟩ := Station.markExpires_of_waiting (s := s.toStation) (by rw [hq]; exact List.cons_ne_nil _ _)
    have hexp : effectOf .markTimerExpiry s.toStation = { s.toStation with link.mark := m, link.ownTaken := o } := heq
    rw [hexp]
    exact ⟨rfl, exec_of_effect (Station.takeFrame_own_timer hon hq he f m o)⟩

/-- Settles O21: the steps of a take in their order, for the own head and for another station's frame. -/
theorem takesRunInOrder : Obligations.TakesRunInOrder := by
  refine ⟨fun s f => ⟨fun h => if_pos h, fun h => if_neg h⟩, fun s own f => ?_,
    fun s f h => exec_of_effect_self (Station.takeFrame_of_off h f),
    fun s f hf hr => exec_of_effect_self (Station.takeFrame_of_nothing hf hr f),
    fun s f h => exec_of_effect (Station.takeFrame_of_decoding h f), fun s f e es hon hq he => exec_of_effect ?_,
    fun s f e es hon hq he hp => exec_of_effect ?_⟩
  · unfold Station.applyKind
    refine ⟨fun q p l c h => ?_, fun item v h => ?_, fun item h => ?_, fun q g p l h => ?_, fun q h => ?_, fun h => ?_⟩
    all_goals rw [h]
    rfl
  · exact (Station.takeFrame_of_own hon hq he f).trans
      (congrArg (Station.applyFrame true _) (Station.takeOwn_eq (s := s.toStation) hq))
  · refine (Station.takeFrame_of_own hon hq he f).trans ?_
    rw [Station.applyFrame_of_mark hp, Station.takeOwn_eq hq]
    rfl

namespace Station

variable {s : Station}

/-! ## The ways out of MUTE -/

theorem returnToResume_eq {r : ResumeState} (h : s.ctl.resume = some r) (c : Cause) : s.returnToResume c =
    { s with ctl.state := r.toState, ctl.resume := none, link.mark := s.fullMark,
             events := s.eventsWith (stateChange s.ctl.state r.toState c) } := by
  rw [returnToResume_of h, startMark_eq]
  rfl

theorem resume_of_mute (h : s.ctl.state = .mute) :
    Station.resume s = ({ s with link.goodRun := 0 }.returnToResume .resume).answer .done :=
  if_neg (not_not.mpr h)

theorem countGoodFrame_of_lt (h : s.ctl.state = .mute) (hg : s.link.goodRun < 31) :
    s.countGoodFrame = { s with link.goodRun := s.link.goodRun + 1 } := by
  unfold Station.countGoodFrame
  rw [if_neg (not_not.mpr h), if_pos (by simp only [Config.goodFramesToLeaveMute]; omega)]

theorem countGoodFrame_of_last (h : s.ctl.state = .mute) (hg : s.link.goodRun = 31) :
    s.countGoodFrame = { s with link.goodRun := 0 }.returnToResume .goodRun := by
  unfold Station.countGoodFrame
  rw [if_neg (not_not.mpr h), if_neg (by rw [hg]; decide)]

theorem judgePosition_of_mute (h : s.ctl.state = .mute) (o : Station5) (k : Pos) : s.judgePosition o k = s := by
  unfold Station.judgePosition
  rw [h]

/-- A MARK from another station is the good-frame count and the position step between the DUP_STATION record and the
purge (R34, R44, R45). -/
theorem takeFrame_of_mark_counted {f : Frame} (h : s.Decoding) (hf : f.payload = .mark) :
    s.takeFrame f = (({ s.frameOver with events := s.notedEvents f } : Station).countGoodFrame.judgePosition f.sender
      (f.stamp - s.pos.capture)).purge f.stamp := by
  rw [takeFrame_of_decoding h, Station.takeOther, applyFrame_of_mark hf, noteDuplicate_eq]
  rfl

end Station

/-- Settles O26: RESUME, the counted take, and the 32nd take, whose position step finds the station in service. -/
theorem muteIsLeftByResumeOrCleanTakes : Obligations.MuteIsLeftByResumeOrCleanTakes := by
  intro s r hst hr
  refine ⟨exec_of_effect ?_, fun f hdec hf => ⟨fun hg => exec_of_effect ?_, fun hg hk => exec_of_effect ?_⟩⟩
  · have hanswer := Station.resume_of_mute
      (s := { s.toStation with port.command := 3, port.access := .ok, port.miso := 0 }) hst
    rw [Station.returnToResume_eq (s := { s.toStation with
      link.goodRun := 0, port.command := 3, port.access := .ok, port.miso := 0 }) hr] at hanswer
    rw [← hst]
    exact Station.runCommand_of hanswer
  · refine (Station.takeFrame_of_mark_counted hdec hf).trans ?_
    rw [Station.countGoodFrame_of_lt (s := { s.toStation.frameOver with events := s.notedEvents f }) hst hg,
      Station.judgePosition_of_mute]
    · rfl
    · exact hst
  · have hin : r.toState = .settling ∨ r.toState = .active := by cases r <;> simp [ResumeState.toState]
    refine (Station.takeFrame_of_mark_counted hdec hf).trans ?_
    rw [Station.countGoodFrame_of_last (s := { s.toStation.frameOver with events := s.notedEvents f }) hst hg,
      Station.returnToResume_eq (s := { s.toStation.frameOver with events := s.notedEvents f, link.goodRun := 0 }) hr,
      Station.judgePosition_of_inService, Station.checkSkew_within, ← hst]
    · rfl
    · exact hk
    · exact hin

end Sys2Proof.Machine

/-! PROOF. A period of the timebase: what comes due waits in the queue once. -/

namespace Sys2Proof.Machine

theorem Timer.due_iff (m : Timer) : m.due = true ↔ m = .running 0 := by
  cases m with
  | stopped => simp [Timer.due]
  | running n => simp [Timer.due]

/-- The expiry of a phase names its channel. -/
theorem Phase.channel_of_expiry {c d : Fin 4} {p q : Phase} (h : p.expiry c = q.expiry d) : c = d := by
  cases p <;> cases q <;> simp_all [Phase.expiry]

/-- The expiry of a phase is no expiry of a timer. -/
theorem Phase.expiry_ne_timer (c : Fin 4) (p : Phase) : p.expiry c ≠ .markTimerExpiry ∧ p.expiry c ≠ .joinTimeout := by
  cases p <;> exact ⟨nofun, nofun⟩

namespace Station

theorem phaseDue_eq_some_iff (s : Station) (c : Fin 4) (i : Instr) :
    s.phaseDue c = some i ↔ ∃ r, (s.chan c).run = some r ∧ r.left = 0 ∧ i = r.phase.expiry c := by
  unfold Station.phaseDue
  cases hr : (s.chan c).run with
  | none => simp
  | some r =>
    simp only [Option.some.injEq, exists_eq_left', Option.ite_none_right_eq_some]
    exact and_congr_right fun _ => eq_comm

/-- The commands that have come due, without their numbers. -/
theorem dueCommands_map_snd (s : Station) :
    s.dueCommands.map Prod.snd =
      (if s.link.mark.due then [Instr.markTimerExpiry] else []) ++
        ((if s.ctl.join.due then [Instr.joinTimeout] else []) ++ (List.finRange 4).filterMap s.phaseDue) := by
  have hphases : ((List.finRange 4).filterMap fun c => (s.phaseDue c).map fun i => (2 + c.val, i)).map Prod.snd =
      (List.finRange 4).filterMap s.phaseDue := by
    rw [List.map_filterMap]
    congr 1
    funext c
    cases s.phaseDue c <;> rfl
  unfold Station.dueCommands
  rw [List.map_append, List.map_append, hphases, List.append_assoc]
  cases s.link.mark.due <;> cases s.ctl.join.due <;> rfl

theorem mem_dueCommands (s : Station) (i : Instr) : i ∈ s.dueCommands.map Prod.snd ↔
    (i = .markTimerExpiry ∧ s.link.mark = .running 0) ∨ (i = .joinTimeout ∧ s.ctl.join = .running 0) ∨
      ∃ c r, (s.chan c).run = some r ∧ r.left = 0 ∧ i = r.phase.expiry c := by
  rw [dueCommands_map_snd, List.mem_append, List.mem_append, ← Timer.due_iff, ← Timer.due_iff]
  simp only [List.mem_filterMap, List.mem_finRange, true_and, phaseDue_eq_some_iff]
  cases s.link.mark.due <;> cases s.ctl.join.due <;> simp

/-- No expiry comes due twice in one period. -/
theorem dueCommands_nodup (s : Station) : (s.dueCommands.map Prod.snd).Nodup := by
  have hphase : ∀ {i}, i ∈ (List.finRange 4).filterMap s.phaseDue → i ≠ .markTimerExpiry ∧ i ≠ .joinTimeout := by
    intro i hi
    obtain ⟨c, -, hc⟩ := List.mem_filterMap.mp hi
    obtain ⟨r, -, -, rfl⟩ := (s.phaseDue_eq_some_iff c i).mp hc
    exact r.phase.expiry_ne_timer c
  have hnodup : ((List.finRange 4).filterMap s.phaseDue).Nodup := by
    refine (List.nodup_finRange 4).filterMap fun c d i hc hd => ?_
    obtain ⟨r, -, -, rfl⟩ := (s.phaseDue_eq_some_iff c i).mp hc
    obtain ⟨r', -, -, h⟩ := (s.phaseDue_eq_some_iff d _).mp hd
    exact Phase.channel_of_expiry h
  rw [dueCommands_map_snd]
  have hjoin : ((if s.ctl.join.due then [Instr.joinTimeout] else []) ++
      (List.finRange 4).filterMap s.phaseDue).Nodup := by
    split
    · exact List.nodup_cons.mpr ⟨fun h => (hphase h).2 rfl, hnodup⟩
    · exact hnodup
  split
  · rw [List.singleton_append, List.nodup_cons]
    refine ⟨fun h => ?_, hjoin⟩
    rcases List.mem_append.mp h with h | h
    · split at h <;> simp at h
    · exact (hphase h).1 rfl
  · exact hjoin

end Station

/-- Settles O3: the queue is a reordering of what has come due after the count, and the choice of the order is counted in
`ties` alone. -/
theorem emptyQueuePassesOneMicrosecond : Obligations.EmptyQueuePassesOneMicrosecond := by
  intro s hs
  have hstep : step s = .next s.idlePeriod := by unfold step; rw [hs]
  obtain ⟨k, hk⟩ := s.toStation.tick.noteChoice_frame s.tick.dueCommands
  have hstation : s.idlePeriod.toStation = { s.toStation.tick with ties := k } := hk
  have hperm : s.idlePeriod.pending.Perm (s.tick.dueCommands.map Prod.snd) :=
    (s.tick.chosenOrder_perm Prod.fst s.tick.dueCommands).map Prod.snd
  refine ⟨s.idlePeriod, hstep, ?_, hperm.nodup_iff.mpr s.tick.dueCommands_nodup, fun i => ?_⟩
  · rw [hstation]
    rfl
  · rw [hperm.mem_iff, Station.mem_dueCommands, hstation]
    rfl

end Sys2Proof.Machine

/-! PROOF. Event records: the queue's two ends, ATTN, and the codes. -/

namespace Sys2Proof.Machine

namespace Station

variable {s : Station}

theorem addRecord_of_room (h : s.events.length < 32) (f : EventFields) : s.addRecord f =
    { s with events := s.events ++ [{ fields := f, pos := s.pos.count, lostAfter := false }] } := by
  rw [Station.addRecord, pushEvent_of_room h]

/-- A full queue loses the record and marks its newest one (R169). -/
theorem addRecord_of_full {es : List EventRecord} {e : EventRecord} (h : 32 ≤ s.events.length)
    (he : s.events = es ++ [e]) (f : EventFields) :
    s.addRecord f = { s with events := es ++ [{ e with lostAfter := true }] } := by
  rw [Station.addRecord, pushEvent_of_full h, he, markNewest_append]

theorem popEvent_of_cons {e : EventRecord} {es : List EventRecord} (h : s.events = e :: es) :
    s.popEvent = { s with events := es, port.record := e.record }.answer .done := by
  unfold Station.popEvent
  rw [h]

theorem popEvent_of_nil (h : s.events = []) :
    s.popEvent = { s with port.record := Record4.zero }.answer .empty := by
  unfold Station.popEvent
  rw [h]

end Station

/-- Settles O49: both ends of the event queue, and the codes one by one. -/
theorem eventsQueueAndPop : Obligations.EventsQueueAndPop := by
  refine ⟨fun s f h => Station.addRecord_of_room h f, fun s f es e h he => Station.addRecord_of_full h he f,
    fun s e es h => exec_of_effect ?_, fun s h => exec_of_effect ?_, fun s => decide_eq_true_iff, ?_,
    fun r => ?_, fun r => ?_, fun r => ?_, fun p => ?_, fun p => ?_⟩
  · exact Station.runCommand_of (Station.popEvent_of_cons
      (s := { s.toStation with port.command := 10, port.access := .ok, port.miso := 0 }) h)
  · exact Station.runCommand_of (Station.popEvent_of_nil
      (s := { s.toStation with port.command := 10, port.access := .ok, port.miso := 0 }) h)
  · rintro number rfl left entered cause
    have hnumber : ∀ st : StationState, (st.number : Int) = (match st with
        | .halted => 0 | .joining => 1 | .settling => 2 | .active => 3 | .drifted => 4 | .mute => 5) := by
      intro st
      cases st <;> rfl
    rw [stateChange, hnumber, hnumber]
    cases cause <;> rfl
  · cases r <;> rfl
  · cases r <;> rfl
  · cases r <;> rfl
  · cases p <;> rfl
  · cases p <;> rfl

end Sys2Proof.Machine

/-! PROOF. Forms, runs, channels and settings in their ranges: what each change of one of them keeps. -/

namespace Sys2Proof.Machine

/-! ## Forms and runs (R144, R147) -/

/-- Both copies of a slot's form are in range. -/
def FormSlot.InRange (f : FormSlot) : Prop := f.live.InRange ∧ f.staged.InRange

theorem FormSlot.InRange.takeCommit {f : FormSlot} (h : f.InRange) : f.takeCommit.InRange := by
  unfold FormSlot.takeCommit
  split
  · exact ⟨h.2, h.2⟩
  · exact h

theorem Form.pulsesAfterFirst_le (f : Form) : f.pulsesAfterFirst ≤ 255 := by
  have := f.burst.isLt
  unfold Form.pulsesAfterFirst
  split <;> omega

theorem Form.kind_of_pulses {f : Form} (h : f.pulsesAfterFirst ≠ 0) : f.kind = .burst := by
  unfold Form.pulsesAfterFirst at h
  split at h
  · assumption
  · exact absurd rfl h
  · exact absurd rfl h

/-- A run starts from a form in range within its ranges, in DELAY or HIGH (R149). -/
theorem Form.InRange.startRun {f : Form} (h : f.InRange) (sl : Slot) (src : Source) (i : Option Tag) :
    (f.startRun sl src i).InRange := by
  obtain ⟨hhigh, hlow, -⟩ := h
  have hd := f.delay.isLt
  have hh := f.high.isLt
  refine ⟨f.pulsesAfterFirst_le, ?_, hhigh, hlow, fun hp => ?_, fun hp => ?_, Form.kind_of_pulses⟩
  · show (if f.delay = 0 then f.high.toNat else f.delay.toNat) ≤ 65535
    split <;> omega
  all_goals
    have hp : (if f.delay = 0 then Phase.high else Phase.delay) = _ := hp
    split at hp <;> cases hp

theorem Run.InRange.enterHigh {r : Run} (h : r.InRange) : r.enterHigh.InRange := by
  obtain ⟨hp, -, hhigh, hlow, -, -, hpulses⟩ := h
  have := r.form.high.isLt
  exact ⟨hp, by show r.form.high.toNat ≤ 65535; omega, hhigh, hlow, nofun, nofun, hpulses⟩

/-- The LOW phase of a BURST with pulses left (R152). -/
theorem Run.InRange.enterLow {r : Run} (h : r.InRange) (hk : r.form.kind = .burst) :
    ({ r with phase := .low, pulses := r.pulses - 1, left := r.form.low.toNat } : Run).InRange := by
  obtain ⟨hp, -, hhigh, hlow, -, -, -⟩ := h
  have := r.form.low.isLt
  exact ⟨by show r.pulses - 1 ≤ 255; omega, by show r.form.low.toNat ≤ 65535; omega, hhigh, hlow, fun _ => hk, nofun,
    fun _ => hk⟩

/-- The HOLD of a HELD form with a cap (R153). -/
theorem Run.InRange.enterHold {r : Run} (h : r.InRange) (hk : r.form.kind = .held) (hc : r.form.cap ≠ 0) :
    ({ r with phase := .hold, left := r.form.cap.toNat } : Run).InRange := by
  obtain ⟨hp, -, hhigh, hlow, -, -, hpulses⟩ := h
  have := r.form.cap.isLt
  exact ⟨hp, by show r.form.cap.toNat ≤ 65535; omega, hhigh, hlow, nofun, fun _ => ⟨hk, hc⟩, hpulses⟩

theorem Run.InRange.tick {r : Run} (h : r.InRange) : ({ r with left := r.left - 1 } : Run).InRange := by
  obtain ⟨hp, hl, hrest⟩ := h
  exact ⟨hp, by show r.left - 1 ≤ 65535; omega, hrest⟩

/-! ## Channels -/

theorem Channel.inRange_iff (c : Channel) :
    c.InRange ↔ (∀ sl, (c.slot sl).InRange) ∧ ∀ r, c.run = some r → r.InRange := by
  constructor
  · rintro ⟨hal, has, hbl, hbs, hr⟩
    exact ⟨fun sl => by cases sl; exacts [⟨hal, has⟩, ⟨hbl, hbs⟩], hr⟩
  · rintro ⟨hs, hr⟩
    exact ⟨(hs .a).1, (hs .a).2, (hs .b).1, (hs .b).2, hr⟩

theorem Channel.InRange.withRun {c : Channel} (h : c.InRange) {r : Option Run} (hr : ∀ x, r = some x → x.InRange) :
    ({ c with run := r } : Channel).InRange := by
  obtain ⟨hal, has, hbl, hbs, -⟩ := h
  exact ⟨hal, has, hbl, hbs, hr⟩

theorem Channel.InRange.setSlot {c : Channel} (h : c.InRange) (sl : Slot) {f : FormSlot} (hf : f.InRange) :
    (c.setSlot sl f).InRange := by
  rw [Channel.inRange_iff] at *
  refine ⟨fun sl' => ?_, by rw [Channel.run_setSlot]; exact h.2⟩
  by_cases hsl : sl' = sl
  · rw [hsl, Channel.slot_setSlot_same]
    exact hf
  · rw [Channel.slot_setSlot_other _ hsl]
    exact h.1 sl'

theorem Channel.InRange.load {c : Channel} (h : c.InRange) (sl : Slot) (src : Source) (i : Option Tag) :
    (c.load sl src i).InRange := by
  have hslot := (((Channel.inRange_iff c).mp h).1 sl).takeCommit
  refine (h.setSlot sl hslot).withRun fun r hr => ?_
  cases hr
  exact hslot.1.startRun sl src i

theorem Channel.InRange.tick {c : Channel} (h : c.InRange) : c.tick.InRange := by
  refine h.withRun fun r hr => ?_
  obtain ⟨r', hr', rfl⟩ := Option.map_eq_some_iff.mp hr
  obtain ⟨-, -, -, -, hrun⟩ := h
  exact (hrun r' hr').tick

theorem Channel.reset_inRange : Channel.reset.InRange := by
  have hform : Form.reset.InRange := ⟨by decide, by decide, by decide⟩
  exact ⟨hform, hform, hform, hform, nofun⟩

/-! ## Form items (R188) -/

theorem shapeFields_inRange {x : Word} {f : Form → Form} (hf : shapeFields x = some f) {m : Form} (hm : m.InRange) :
    (f m).InRange := by
  unfold shapeFields at hf
  split at hf
  · cases hf
  · split at hf
    · cases hf
    · next hb => cases hf; exact ⟨hm.1, hm.2.1, hb⟩

theorem widthsFields_inRange {x : Word} {f : Form → Form} (hf : widthsFields x = some f) {m : Form} (hm : m.InRange) :
    (f m).InRange := by
  unfold widthsFields at hf
  split at hf
  · cases hf
  · next hw =>
    obtain ⟨hhigh, hlow⟩ := not_or.mp hw
    cases hf
    exact ⟨hhigh, hlow, hm.2.2⟩

theorem capField_inRange {x : Word} {f : Form → Form} (hf : capField x = some f) {m : Form} (hm : m.InRange) :
    (f m).InRange := by
  unfold capField at hf
  split at hf
  · cases hf
  · cases hf; exact hm

/-! ## Settings (R185 to R187) -/

theorem rangeValue_bounds {low high w : Nat} {x : Word} {v : BitVec w} (h : rangeValue low high w x = some v)
    (hw : high < 2 ^ w) : low ≤ v.toNat ∧ v.toNat ≤ high := by
  unfold rangeValue at h
  split at h
  · next hx =>
    cases h
    rw [BitVec.toNat_setWidth, Nat.mod_eq_of_lt (by omega)]
    exact hx
  · cases h

theorem markIntervalValue_bounds {x : Word} {v : BitVec 14} (h : markIntervalValue x = some v) :
    v = 0 ∨ 10 ≤ v.toNat ∧ v.toNat ≤ 10000 := by
  unfold markIntervalValue at h
  split at h
  · cases h; exact .inl rfl
  · exact .inr (rangeValue_bounds h (by norm_num))

theorem Settings.InRange.setTemplate {x : Settings} (h : x.InRange) (t : Fin 16) {c : Template} (hc : c.length ≠ 0) :
    ({ x with templates := x.templates.set t.val c t.isLt } : Settings).InRange := by
  obtain ⟨hj, hm, ht, hcl, ha, ha', hw⟩ := h
  refine ⟨hj, hm, ht, hcl, ha, ha', fun u => ?_⟩
  by_cases hu : u = t
  · rw [hu, get_set_same]
    exact hc
  · rw [get_set_other _ hu]
    exact hw u

theorem Settings.InRange.template {x : Settings} (h : x.InRange) (t : Fin 16) : (x.templates.get t).length ≠ 0 := by
  obtain ⟨-, -, -, -, -, -, hw⟩ := h
  exact hw t

theorem Settings.reset_inRange : Settings.reset.InRange := by
  refine ⟨by decide, .inr (by decide), by decide, by decide, by decide, by decide, fun t => ?_⟩
  rw [get_eq_getElem]
  simp [Settings.reset, Template.reset]

theorem Template.writeSelect_length {x : Word} {t c : Template} (h : t.writeSelect x = some c) :
    c.length = t.length := by
  unfold Template.writeSelect at h
  split at h <;> cases h
  rfl

theorem Template.writeTiming_length {x : Word} {t c : Template} (h : t.writeTiming x = some c) :
    c.length = t.length := by
  unfold Template.writeTiming at h
  split at h <;> cases h
  rfl

theorem Template.writeWindow_length {x : Word} {t c : Template} (h : t.writeWindow x = some c) : c.length ≠ 0 := by
  unfold Template.writeWindow at h
  split at h
  · cases h
  · next hx => cases h; exact hx

theorem Prescale.counts_pos (p : Prescale) : 0 < p.counts := by cases p <;> decide

end Sys2Proof.Machine

/-! PROOF. What each operation of the blocks keeps of the capacities and the ranges: the update of one collection or
count, the operations of the output channels, and those of the agenda and the tables. -/

namespace Sys2Proof.Machine

/-- `t` keeps each capacity and each range that `s` keeps to (R5, R38, R39, R79, R102, R120, R144, R147, R168, R185). -/
structure KeepsRanges (s t : Station) : Prop where
  track : s.track.length ≤ Config.trackCapacity → t.track.length ≤ Config.trackCapacity
  agenda : s.agenda.length ≤ Config.agendaCapacity → t.agenda.length ≤ Config.agendaCapacity
  claims : s.claims.length ≤ Config.claimsCapacity → t.claims.length ≤ Config.claimsCapacity
  txq : s.link.txq.length ≤ Config.txqCapacity → t.link.txq.length ≤ Config.txqCapacity
  events : s.events.length ≤ Config.eventCapacity → t.events.length ≤ Config.eventCapacity
  fails : s.link.fails < Config.failuresToMute → t.link.fails < Config.failuresToMute
  goodRun : s.link.goodRun < Config.goodFramesToLeaveMute → t.link.goodRun < Config.goodFramesToLeaveMute
  attempts : (∀ e ∈ s.link.txq, e.attempts < Config.attemptsPerFrame) →
    ∀ e ∈ t.link.txq, e.attempts < Config.attemptsPerFrame
  sub : s.SubCountInRange → t.SubCountInRange
  settings : s.SettingsInRange → t.SettingsInRange
  channels : s.ChannelsInRange → t.ChannelsInRange

/-- The fields that have a capacity or a range. -/
def Station.ranged (s : Station) :=
  (s.track, s.agenda, s.claims, s.link.txq, s.events, s.link.fails, s.link.goodRun, s.pos.sub, s.settings, s.channels)

/-! ## Lengths -/

theorem insertEntry_length (p : Pos) (e : Entry) (es : List Entry) : (insertEntry p e es).length = es.length + 1 := by
  induction es with
  | nil => rfl
  | cons f fs ih =>
    unfold insertEntry
    split
    · rfl
    · rw [List.length_cons, ih, List.length_cons]

theorem settleFirst_length (seq : Seq8) (c : ClaimState) (es : List Entry) :
    (settleFirst seq c es).length = es.length := by
  induction es with
  | nil => rfl
  | cons e es ih =>
    unfold settleFirst
    split
    · rfl
    · rw [List.length_cons, ih, List.length_cons]

theorem placeItem_length (t : Pos) (i : Item) (js : List Item) : (placeItem t i js).length = js.length + 1 := by
  induction js with
  | nil => rfl
  | cons j js ih =>
    unfold placeItem
    split
    · rfl
    · rw [List.length_cons, ih, List.length_cons]

theorem placeClaim_length (t : Pos) (c : Claim) (ds : List Claim) : (placeClaim t c ds).length = ds.length + 1 := by
  induction ds with
  | nil => rfl
  | cons d ds ih =>
    unfold placeClaim
    split
    · rfl
    · rw [List.length_cons, ih, List.length_cons]

/-- A SIGHT that is not refused finds room in the track table (R81). -/
theorem Station.track_room_of_sightRefusal {s : Station} {t : Pos} {i : Item} (h : s.sightRefusal t i = none) :
    s.track.length < Config.trackCapacity := by
  unfold Station.sightRefusal at h
  split_ifs at h with _ _ _ hfull
  exact not_le.mp hfull

/-- A CLAIM that is not refused finds room in the claims table (R127). -/
theorem Station.claims_room_of_claimRefusal {s : Station} {t : Pos} {c : Claim} (h : s.claimRefusal t c = none) :
    s.claims.length < Config.claimsCapacity := by
  unfold Station.claimRefusal at h
  split_ifs at h with _ _ _ _ hfull
  exact not_le.mp hfull

namespace KeepsRanges

variable {s t u : Station}

theorem refl (s : Station) : KeepsRanges s s := ⟨id, id, id, id, id, id, id, id, id, id, id⟩

theorem trans (h : KeepsRanges s t) (k : KeepsRanges t u) : KeepsRanges s u where
  track := k.track ∘ h.track
  agenda := k.agenda ∘ h.agenda
  claims := k.claims ∘ h.claims
  txq := k.txq ∘ h.txq
  events := k.events ∘ h.events
  fails := k.fails ∘ h.fails
  goodRun := k.goodRun ∘ h.goodRun
  attempts := k.attempts ∘ h.attempts
  sub := k.sub ∘ h.sub
  settings := k.settings ∘ h.settings
  channels := k.channels ∘ h.channels

theorem foldl {α : Type} {act : Station → α → Station} (hact : ∀ t x, KeepsRanges t (act t x)) (xs : List α)
    (s : Station) : KeepsRanges s (xs.foldl act s) :=
  foldl_induct (P := KeepsRanges s) (fun x _ t h => h.trans (hact t x)) (.refl s)

/-! ## The updates of single fields -/

/-- What is equal in every field that has a capacity or a range keeps them. -/
theorem of_eq (h : t.ranged = s.ranged) : KeepsRanges s t := by
  simp only [Station.ranged, Prod.mk.injEq] at h
  obtain ⟨htr, hag, hcl, htx, hev, hfa, hgo, hsub, hset, hch⟩ := h
  constructor
  all_goals simp only [Station.SubCountInRange, Station.SettingsInRange, Station.ChannelsInRange, Station.chan,
    htr, hag, hcl, htx, hev, hfa, hgo, hsub, hset, hch, imp_self]

theorem addRecord (s : Station) (f : EventFields) : KeepsRanges s (s.addRecord f) :=
  { refl s with events := fun h => pushEvent_length_le h _ }

theorem changeState (s : Station) (e : StationState) (c : Cause) : KeepsRanges s (s.changeState e c) :=
  { refl s with events := fun h => pushEvent_length_le h _ }

theorem withAgenda (s : Station) {ag : List Entry} (h : ag.length ≤ s.agenda.length) :
    KeepsRanges s { s with agenda := ag } :=
  { refl s with agenda := h.trans }

theorem withTrack (s : Station) {tr : List Item} (h : tr.length ≤ s.track.length) :
    KeepsRanges s { s with track := tr } :=
  { refl s with track := h.trans }

theorem withClaims (s : Station) {cl : List Claim} (h : cl.length ≤ s.claims.length) :
    KeepsRanges s { s with claims := cl } :=
  { refl s with claims := h.trans }

/-- A queue that is not longer, of entries with the attempt counts of entries in the old one. -/
theorem withQueue (s : Station) {q : List TxEntry} (hlen : q.length ≤ s.link.txq.length)
    (hatt : ∀ e ∈ q, ∃ f ∈ s.link.txq, f.attempts = e.attempts) : KeepsRanges s { s with link.txq := q } :=
  { refl s with
    txq := hlen.trans
    attempts := fun h e he => by
      obtain ⟨f, hf, heq⟩ := hatt e he
      exact heq ▸ h f hf }

/-- Entries that leave the queue leave the attempt counts of the others. -/
theorem withQueue_sublist (s : Station) {q : List TxEntry} (h : q.Sublist s.link.txq) :
    KeepsRanges s { s with link.txq := q } :=
  withQueue s h.length_le fun e he => ⟨e, h.mem he, rfl⟩

theorem withSettings (s : Station) {x : Settings} (hsub : x.prescale = s.settings.prescale)
    (h : s.settings.InRange → x.InRange) : KeepsRanges s (s.withSettings x) :=
  { refl s with
    sub := fun hs => by
      show s.pos.sub < x.prescale.counts
      rw [hsub]
      exact hs
    settings := h }

theorem setChan (s : Station) (c : Fin 4) {x : Channel} (h : s.ChannelsInRange → x.InRange) :
    KeepsRanges s (s.setChan c x) :=
  { refl s with
    channels := fun hs d => by
      by_cases hd : d = c
      · rw [hd, Station.chan_setChan_same]
        exact h hs
      · rw [Station.chan_setChan_other _ hd]
        exact hs d }

theorem setRun (s : Station) (c : Fin 4) {r : Option Run} (h : s.ChannelsInRange → ∀ x, r = some x → x.InRange) :
    KeepsRanges s (s.setRun c r) :=
  setChan s c fun hs => (hs c).withRun (h hs)

/-! ## The transmit queue -/

theorem pushTx {s : Station} (h : s.txFull = false) (p : Payload) (o : TxOrigin) : KeepsRanges s (s.pushTx p o) :=
  { refl s with
    txq := fun _ => by
      rw [Station.pushTx_link_txq, List.length_append]
      exact Nat.lt_of_not_le (of_decide_eq_false h)
    attempts := fun hs e he => by
      rcases List.mem_append.mp he with he | he
      · exact hs e he
      · rw [List.mem_singleton.mp he]
        show 0 < Config.attemptsPerFrame
        decide }

theorem enqueue (s : Station) (p : Payload) (o : TxOrigin) : KeepsRanges s (s.enqueue p o) := by
  unfold Station.enqueue
  split
  · exact addRecord s _
  · next h => exact pushTx (Bool.eq_false_iff.mpr h) p o

/-! ## Output channels -/

theorem fireRequest (s : Station) (c : Fin 4) (sl : Slot) (src : Source) (i : Option Tag) :
    KeepsRanges s (s.fireRequest c sl src i) := by
  unfold Station.fireRequest
  split
  · exact addRecord s _
  · exact addRecord s _
  · exact setChan s c fun hs => (hs c).load sl src i

theorem followChain (s : Station) (c : Fin 4) (i : Option Tag) : KeepsRanges s (s.followChain c i) := by
  unfold Station.followChain
  split
  · exact refl s
  · split
    · exact fireRequest s _ _ _ _
    · exact refl s

theorem endRun (s : Station) (c : Fin 4) : KeepsRanges s (s.setRun c none) := setRun s c fun _ => nofun

theorem endSequence (s : Station) (c : Fin 4) (r : Run) : KeepsRanges s (s.endSequence c r) :=
  (endRun s c).trans (followChain _ c r.item)

theorem cutSequence (s : Station) (c : Fin 4) : KeepsRanges s (s.cutSequence c) := by
  unfold Station.cutSequence
  split
  · exact refl s
  · exact (endRun s c).trans (addRecord _ _)

theorem releaseHold (s : Station) (c : Fin 4) : KeepsRanges s (s.releaseHold c) := by
  unfold Station.releaseHold
  split
  · exact refl s
  · split
    · exact endSequence s c _
    · exact refl s

theorem releaseHoldAmong (before : Station) (waiting : List (Fin 4)) (c : Fin 4) (s : Station) :
    KeepsRanges s (Station.releaseHoldAmong before waiting c s) := by
  unfold Station.releaseHoldAmong
  split
  · have hother : KeepsRanges s { s with pins.aux := before.pins.aux } := .of_eq rfl
    exact (hother.trans (releaseHold _ c)).trans (.of_eq rfl)
  · exact releaseHold s c

theorem applyAux (before : Station) (waiting : List (Fin 4)) (c : Fin 4) (s : Station) :
    KeepsRanges s (Station.applyAux before waiting c s) := by
  unfold Station.applyAux
  split
  · exact refl s
  · split
    · exact cutSequence s c
    · exact releaseHoldAmong before waiting c s

theorem applyConditions (before : Station) (cs : List (Fin 4)) (s : Station) :
    KeepsRanges s (Station.applyConditions before cs s) := by
  induction cs generalizing s with
  | nil => exact refl s
  | cons c cs ih => exact (applyAux before cs c s).trans (ih _)

theorem noteChoice {α : Type} (xs : List α) (s : Station) : KeepsRanges s (s.noteChoice xs) := by
  obtain ⟨k, hk⟩ := s.noteChoice_frame xs
  rw [hk]
  exact .of_eq rfl

theorem conditionsChanged (before s : Station) : KeepsRanges s (Station.conditionsChanged before s) :=
  (noteChoice _ s).trans (applyConditions before _ _)

theorem auxRead (s : Station) (n : Fin 4) (level : Bool) : KeepsRanges s (s.auxRead n level) := by
  have hpins : KeepsRanges s { s with pins.aux := s.pins.aux.set n.val level n.isLt } := .of_eq rfl
  exact hpins.trans (conditionsChanged s _)

/-! ## Expiries -/

theorem run_inRange {c : Fin 4} {r : Run} (hr : (s.chan c).run = some r) (hs : s.ChannelsInRange) : r.InRange := by
  obtain ⟨-, -, -, -, hrun⟩ := hs c
  exact hrun r hr

theorem enterHigh (s : Station) {c : Fin 4} {r : Run} (hr : (s.chan c).run = some r) :
    KeepsRanges s (s.setRun c (some r.enterHigh)) :=
  setRun s c fun hs _ hx => Option.some.inj hx ▸ (run_inRange hr hs).enterHigh

theorem delayExpires (s : Station) (c : Fin 4) : KeepsRanges s (s.delayExpires c) := by
  unfold Station.delayExpires
  split
  · exact refl s
  · next hr =>
    split
    · exact enterHigh s hr
    · exact refl s

theorem lowExpires (s : Station) (c : Fin 4) : KeepsRanges s (s.lowExpires c) := by
  unfold Station.lowExpires
  split
  · exact refl s
  · next hr =>
    split
    · exact enterHigh s hr
    · exact refl s

theorem endOfHigh (s : Station) {c : Fin 4} {r : Run} (hr : (s.chan c).run = some r) :
    KeepsRanges s (s.endOfHigh c r) := by
  unfold Station.endOfHigh
  split
  · exact endSequence s c r
  · next hk =>
    split
    · exact endSequence s c r
    · exact setRun s c fun hs _ hx => Option.some.inj hx ▸ (run_inRange hr hs).enterLow hk
  · next hk =>
    split
    · next hcap => exact setRun s c fun hs _ hx => Option.some.inj hx ▸ (run_inRange hr hs).enterHold hk hcap.2
    · exact endSequence s c r

theorem highExpires (s : Station) (c : Fin 4) : KeepsRanges s (s.highExpires c) := by
  unfold Station.highExpires
  split
  · exact refl s
  · next hr =>
    split
    · exact endOfHigh s hr
    · exact refl s

theorem holdCapExpires (s : Station) (c : Fin 4) : KeepsRanges s (s.holdCapExpires c) := by
  unfold Station.holdCapExpires
  split
  · exact refl s
  · split
    · split
      · exact (addRecord s _).trans (endSequence _ c _)
      · exact endSequence s c _
    · exact refl s

/-! ## Entries that leave the agenda -/

theorem loadMatch (s : Station) : KeepsRanges s s.loadMatch := .of_eq rfl

theorem releaseClaim (s : Station) (e : Entry) : KeepsRanges s (s.releaseClaim e) := by
  unfold Station.releaseClaim
  split
  · split
    · exact enqueue s _ _
    · exact refl s
  · exact withQueue_sublist s List.eraseP_sublist
  · exact refl s
  · exact refl s

theorem leaveAll {handle : Entry → Station → Station} (hh : ∀ e t, KeepsRanges t (handle e t)) (es : List Entry)
    (s : Station) : KeepsRanges s (s.leaveAll handle es) :=
  (foldl (fun t e => ((withAgenda t List.erase_sublist.length_le).trans (releaseClaim _ e)).trans (hh e _)) es s).trans
    (loadMatch _)

theorem reportFired (s : Station) (t : Fin 16) (i : Tag) : KeepsRanges s (s.reportFired t i) := by
  unfold Station.reportFired
  split
  · exact addRecord s _
  · exact refl s

theorem judgeMatched (s : Station) (e : Entry) : KeepsRanges s (s.judgeMatched e) := by
  unfold Station.judgeMatched
  split
  · exact addRecord s _
  · split
    · exact refl s
    · split
      · exact addRecord s _
      · exact (reportFired s _ _).trans (fireRequest _ _ _ _ _)

theorem handleLate (s : Station) (t : Fin 16) (i : Tag) (l : Nat) : KeepsRanges s (s.handleLate t i l) := by
  unfold Station.handleLate
  split
  · exact addRecord s _
  · split
    · exact addRecord s _
    · split
      · exact refl s
      · exact (addRecord s _).trans (fireRequest _ _ _ _ _)

theorem takeMatch (s : Station) : KeepsRanges s s.takeMatch := leaveAll (fun e t => judgeMatched t e) _ s

theorem lateSweep (s : Station) : KeepsRanges s s.lateSweep := leaveAll (fun _ t => handleLate t _ _ _) _ s

theorem cancelItem (s : Station) (tag : Tag) : KeepsRanges s (s.cancelItem tag) := leaveAll (fun _ t => refl t) _ s

theorem removeItem (s : Station) (tag : Tag) : KeepsRanges s (s.removeItem tag) :=
  (withTrack s List.eraseP_sublist.length_le).trans (cancelItem _ tag)

theorem removeOldest (n : Nat) (s : Station) : KeepsRanges s (s.removeOldest n) := by
  induction n generalizing s with
  | zero => exact refl s
  | succ n ih =>
    unfold Station.removeOldest
    split
    · exact refl s
    · split
      · exact (removeItem s _).trans (ih _)
      · exact refl s

/-! ## Insertion -/

theorem sendClaim (s : Station) (t : Fin 16) (i : Tag) (g : BitVec 3) (p : Pos) (l : BitVec 16) :
    KeepsRanges s (s.sendClaim t i g p l).station := by
  unfold Station.sendClaim
  split
  · exact addRecord s _
  · next h =>
    have hseq : KeepsRanges s { s with claimSeq := s.claimSeq + 1 } := .of_eq rfl
    exact hseq.trans (pushTx (s := { s with claimSeq := s.claimSeq + 1 }) (Bool.eq_false_iff.mpr h) _ _)

theorem makeClaim (s : Station) (t : Fin 16) (i : Tag) (g : BitVec 3) (p : Pos) (l : BitVec 16) :
    KeepsRanges s (s.makeClaim t i g p l).station := by
  unfold Station.makeClaim
  split
  · exact addRecord s _
  · split
    · exact addRecord s _
    · exact sendClaim s t i g p l

theorem claimFor (s : Station) (t : Fin 16) (i : Tag) (f : Pos) : KeepsRanges s (s.claimFor t i f).station := by
  unfold Station.claimFor
  split
  · exact refl s
  · exact makeClaim s t i _ _ _

theorem addEntry {s : Station} (h : s.agenda.length < Config.agendaCapacity) (t : Fin 16) (i : Item) (f : Pos) :
    KeepsRanges s (s.addEntry t i f) :=
  { claimFor s t i.tag f with
    agenda := fun _ => by
      obtain ⟨q, ev, k, hclaim⟩ := s.claimFor_frame t i.tag f
      rw [Station.addEntry, hclaim]
      show (insertEntry _ _ _).length ≤ _
      rw [insertEntry_length]
      exact h }

theorem insertFor (s : Station) (i : Item) (t : Fin 16) : KeepsRanges s (s.insertFor i t) := by
  unfold Station.insertFor
  split
  · exact refl s
  · split
    · exact handleLate s _ _ _
    · split
      · exact addRecord s _
      · next h => exact addEntry (not_le.mp h) t i _

theorem insertItem (s : Station) (i : Item) : KeepsRanges s (s.insertItem i) :=
  (foldl (fun t n => insertFor t i n) _ s).trans (loadMatch _)

/-! ## The track table and the claims table -/

theorem settleFirst (s : Station) (seq : Seq8) (c : ClaimState) :
    KeepsRanges s { s with agenda := Machine.settleFirst seq c s.agenda } :=
  withAgenda s (settleFirst_length seq c s.agenda).le

theorem loseClaim (s : Station) (seq : Seq8) (r : LossReason) : KeepsRanges s (s.loseClaim seq r) := by
  unfold Station.loseClaim
  split
  · exact refl s
  · exact (settleFirst s seq .lost).trans (addRecord _ _)

theorem takeSight (s : Station) (t : Pos) (i : Item) : KeepsRanges s (s.takeSight t i) := by
  unfold Station.takeSight
  split
  · exact addRecord s _
  · next h =>
    have hplace : KeepsRanges s { s with track := placeItem t i s.track } :=
      { refl s with
        track := fun _ => (placeItem_length t i s.track).trans_le (Station.track_room_of_sightRefusal h) }
    exact hplace.trans (insertItem _ i)

theorem takeVerdict (s : Station) (o : Station5) (tag : Tag) (v : BitVec 2) :
    KeepsRanges s (s.takeVerdict o tag v) := by
  unfold Station.takeVerdict
  split
  · exact addRecord s _
  · split
    · exact withTrack s (List.length_map _).le
    · exact addRecord s _

theorem takeRetire (s : Station) (tag : Tag) : KeepsRanges s (s.takeRetire tag) := by
  unfold Station.takeRetire
  split
  · exact removeItem s tag
  · exact refl s

theorem ownEntered (s : Station) (seq : Seq8) : KeepsRanges s (s.ownEntered seq) := by
  unfold Station.ownEntered
  split
  · exact settleFirst s seq (.held seq)
  · exact (addRecord s _).trans (enqueue _ _ _)

theorem takeClaim (s : Station) (own : Bool) (t : Pos) (c : Claim) : KeepsRanges s (s.takeClaim own t c) := by
  unfold Station.takeClaim
  split
  · next h =>
    have henter : KeepsRanges s (s.enterClaim t c) :=
      { refl s with
        claims := fun _ => (placeClaim_length t c s.claims).trans_le (Station.claims_room_of_claimRefusal h) }
    split
    · exact henter.trans (ownEntered _ _)
    · exact henter
  · split
    · exact loseClaim s _ _
    · exact refl s

theorem applyKind (s : Station) (own : Bool) (f : Frame) : KeepsRanges s (s.applyKind own f) := by
  unfold Station.applyKind
  split
  · exact takeSight s _ _
  · exact takeVerdict s _ _ _
  · exact takeRetire s _
  · exact takeClaim s own _ _
  · exact withClaims s List.eraseP_sublist.length_le
  · exact refl s

theorem applyFrame (s : Station) (own : Bool) (f : Frame) : KeepsRanges s (s.applyFrame own f) :=
  (withClaims s List.filter_sublist.length_le).trans (applyKind _ own f)

end KeepsRanges
end Sys2Proof.Machine

/-! PROOF. Every step keeps the capacities and the ranges: the position unit, the link controller, the takes, the
sensors, the configuration items, and the step itself. -/

namespace Sys2Proof.Machine

theorem TxEntry.align_attempts (k : Pos) (e : TxEntry) : (e.align k).attempts = e.attempts := by
  unfold TxEntry.align
  split
  · split <;> rfl
  all_goals rfl

theorem setHeadFlight_length (b : Bool) (q : List TxEntry) : (setHeadFlight b q).length = q.length := by
  cases q <;> rfl

theorem attempts_of_mem_setHeadFlight {b : Bool} {q : List TxEntry} {e : TxEntry} (h : e ∈ setHeadFlight b q) :
    ∃ f ∈ q, f.attempts = e.attempts := by
  cases q with
  | nil => cases h
  | cons f fs =>
    rcases List.mem_cons.mp h with rfl | h
    · exact ⟨f, .head _, rfl⟩
    · exact ⟨e, .tail _ h, rfl⟩

namespace KeepsRanges

variable {s t : Station}

/-! ## Counts -/

theorem withSub (s : Station) (d : Direction) {n : Nat} (h : s.SubCountInRange → n < s.settings.prescale.counts) :
    KeepsRanges s { s with pos.dir := d, pos.sub := n } :=
  { refl s with sub := h }

theorem withFails (s : Station) {n : Nat} (h : n < Config.failuresToMute) :
    KeepsRanges s { s with link.fails := n } :=
  { refl s with fails := fun _ => h }

theorem withGoodRun (s : Station) {n : Nat} (h : n < Config.goodFramesToLeaveMute) :
    KeepsRanges s { s with link.goodRun := n } :=
  { refl s with goodRun := fun _ => h }

theorem resetFails (s : Station) : KeepsRanges s { s with link.fails := 0 } := withFails s (by decide)

theorem resetGoodRun (s : Station) : KeepsRanges s { s with link.goodRun := 0 } := withGoodRun s (by decide)

/-! ## The position unit -/

theorem settleStep (s : Station) : KeepsRanges s s.settleStep := by
  unfold Station.settleStep
  split
  · exact refl s
  · split
    · have hstart : KeepsRanges s { s with ctl.settleStart := none } := .of_eq rfl
      exact hstart.trans (changeState _ _ _)
    · split
      · exact .of_eq rfl
      · exact refl s

theorem handle (r : StepReceiver) (s : Station) : KeepsRanges s (r.handle s) := by
  cases r with
  | track => exact removeOldest _ s
  | agenda =>
    show KeepsRanges s s.matchStep
    unfold Station.matchStep
    split
    · exact takeMatch s
    · exact refl s
  | control => exact settleStep s

theorem forwardStep (s : Station) : KeepsRanges s s.forwardStep :=
  Station.inTieOrder_induct (P := KeepsRanges s) (fun _ _ h => h.trans (.of_eq rfl))
    (fun r _ _ h => h.trans (handle r _)) (.of_eq rfl)

theorem reverseStep (s : Station) : KeepsRanges s s.reverseStep := by
  have hcount : KeepsRanges s { s with pos.count := s.pos.count - 1 } := .of_eq rfl
  exact hcount.trans (lateSweep _)

theorem count (s : Station) (d : Direction) : KeepsRanges s (s.count d) := by
  have hpos := s.settings.prescale.counts_pos
  unfold Station.count
  split
  · split
    · exact (withSub s .forward fun _ => hpos).trans (forwardStep _)
    · next hne => exact withSub s .forward fun hs => lt_of_le_of_ne hs hne
  · split
    · exact (withSub s .reverse fun _ => Nat.sub_one_lt hpos.ne').trans (reverseStep _)
    · exact withSub s .reverse fun hs => (Nat.sub_le _ _).trans_lt hs

theorem encoderChange (s : Station) (new : EncLevels) : KeepsRanges s (s.encoderChange new) := by
  have haccept : KeepsRanges s (s.acceptLevels new) := .of_eq rfl
  unfold Station.encoderChange
  split
  · exact haccept
  · exact haccept.trans (count _ _)

theorem moveCount (s : Station) (k : Pos) : KeepsRanges s (s.moveCount k) := by
  have hqueue : KeepsRanges s { s with link.txq := s.link.txq.map (TxEntry.align k) } :=
    withQueue s (List.length_map _).le fun e he => by
      obtain ⟨f, hf, rfl⟩ := List.mem_map.mp he
      exact ⟨f, hf, (f.align_attempts k).symm⟩
  have hsub := withSub { s with link.txq := s.link.txq.map (TxEntry.align k) } s.pos.dir (n := 0) fun _ =>
    s.settings.prescale.counts_pos
  exact (hqueue.trans hsub).trans (.of_eq rfl)

theorem align (s : Station) (k : Pos) : KeepsRanges s (s.align k) := (moveCount s k).trans (lateSweep _)

theorem startMark (s : Station) : KeepsRanges s s.startMark := .of_eq rfl

theorem enterSettling (s : Station) (c : Cause) : KeepsRanges s (s.enterSettling c) := by
  have hstart : KeepsRanges s { s with ctl.settleStart := some s.pos.count, ctl.join := .stopped } := .of_eq rfl
  exact (hstart.trans (changeState _ _ _)).trans (startMark _)

theorem joinAt (s : Station) (o : Station5) (k : Pos) : KeepsRanges s (s.joinAt o k) :=
  ((align s k).trans (addRecord _ _)).trans (enterSettling _ _)

theorem joinExpires (s : Station) : KeepsRanges s s.joinExpires := by
  unfold Station.joinExpires
  split
  · exact enterSettling s _
  · exact refl s

theorem checkSkew (s : Station) (o : Station5) (k : Pos) : KeepsRanges s (s.checkSkew o k) := by
  unfold Station.checkSkew
  split
  · exact refl s
  · have hsuspect : KeepsRanges s
        { s with pos.suspect := some { station := o, skew := k }, ctl.resume := s.ctl.state.toResume } := .of_eq rfl
    exact ((hsuspect.trans (addRecord _ _)).trans (changeState _ _ _)).trans (.of_eq rfl)

theorem returnToResume (s : Station) (c : Cause) : KeepsRanges s (s.returnToResume c) := by
  unfold Station.returnToResume
  split
  · exact refl s
  · have hresume : KeepsRanges s { s with ctl.resume := none } := .of_eq rfl
    exact (hresume.trans (changeState _ _ _)).trans (startMark _)

theorem resolveDrift (s : Station) : KeepsRanges s s.resolveDrift := by
  have hsuspect : KeepsRanges s { s with pos.suspect := none } := .of_eq rfl
  exact hsuspect.trans (returnToResume _ _)

theorem suspectSpeaks (s : Station) (o : Station5) (k : Pos) : KeepsRanges s (s.suspectSpeaks o k) := by
  unfold Station.suspectSpeaks
  split
  · exact resolveDrift s
  · exact .of_eq rfl

theorem thirdOpinion (s : Station) (u : Suspect) (o : Station5) (k : Pos) : KeepsRanges s (s.thirdOpinion u o k) := by
  unfold Station.thirdOpinion
  split
  · exact (addRecord s _).trans (resolveDrift _)
  · split
    · exact ((align s k).trans (addRecord _ _)).trans (resolveDrift _)
    · have hsuspect : KeepsRanges s { s with pos.suspect := some { station := o, skew := k } } := .of_eq rfl
      exact hsuspect.trans (addRecord _ _)

theorem resolveSkew (s : Station) (o : Station5) (k : Pos) : KeepsRanges s (s.resolveSkew o k) := by
  unfold Station.resolveSkew
  split
  · exact refl s
  · split
    · exact suspectSpeaks s o k
    · exact thirdOpinion s _ o k

theorem judgePosition (s : Station) (o : Station5) (k : Pos) : KeepsRanges s (s.judgePosition o k) := by
  unfold Station.judgePosition
  split
  · exact joinAt s o k
  · exact checkSkew s o k
  · exact checkSkew s o k
  · exact resolveSkew s o k
  · exact refl s
  · exact refl s

/-! ## The link controller -/

theorem seeStartBit (s : Station) : KeepsRanges s s.seeStartBit := by
  unfold Station.seeStartBit
  split
  · exact .of_eq rfl
  · exact refl s

theorem seeIdleGap (s : Station) : KeepsRanges s s.seeIdleGap := by
  unfold Station.seeIdleGap
  split
  · exact .of_eq rfl
  · exact refl s

theorem withHeadFlight (s : Station) (b : Bool) : KeepsRanges s { s with link.txq := setHeadFlight b s.link.txq } :=
  withQueue s (setHeadFlight_length b _).le fun _ => attempts_of_mem_setHeadFlight

theorem startFrame (s : Station) : KeepsRanges s s.startFrame := by
  unfold Station.startFrame
  split
  · exact (withHeadFlight s true).trans (.of_eq rfl)
  · exact refl s

theorem loseArbitration (s : Station) : KeepsRanges s s.loseArbitration := by
  unfold Station.loseArbitration
  split
  · exact (withHeadFlight s false).trans (.of_eq rfl)
  · exact refl s

theorem handBack (flushed : Bool) (s : Station) (e : TxEntry) : KeepsRanges s (s.handBack flushed e) := by
  unfold Station.handBack
  split
  · exact loseClaim s _ _
  · split
    · exact addRecord s _
    · exact refl s
  all_goals exact refl s

theorem flushQueue (s : Station) : KeepsRanges s s.flushQueue :=
  (withQueue_sublist s (List.nil_sublist _)).trans (foldl (handBack true) s.link.txq _)

theorem enterMute (s : Station) : KeepsRanges s s.enterMute := by
  have hctl : KeepsRanges { s with link.goodRun := 0 }
      { s with ctl.resume := s.ctl.state.toResume, link.mark := .stopped, link.goodRun := 0 } := .of_eq rfl
  exact (((resetGoodRun s).trans hctl).trans (changeState _ _ _)).trans (flushQueue _)

theorem countFailure (s : Station) : KeepsRanges s s.countFailure := by
  unfold Station.countFailure
  split
  · next h => exact withFails s h
  · split
    · exact (resetFails s).trans (enterMute _)
    · exact resetFails s

theorem dropHead (s : Station) (e : TxEntry) : KeepsRanges s (s.dropHead e) :=
  ((withQueue_sublist s (List.tail_sublist _)).trans (addRecord _ _)).trans (handBack false _ e)

theorem failHead {e : TxEntry} {es : List TxEntry} (hq : s.link.txq = e :: es) : KeepsRanges s (s.failHead e) := by
  unfold Station.failHead
  split
  · next hlt =>
    have hhead : KeepsRanges s
        { s with link.txq := { e with attempts := e.attempts + 1, inFlight := false } :: s.link.txq.tail } :=
      { refl s with
        txq := fun h => by
          rw [hq] at h ⊢
          exact h
        attempts := fun h f hf => by
          rcases List.mem_cons.mp hf with rfl | hf
          · exact hlt
          · exact h f (List.mem_of_mem_tail hf) }
    exact hhead.trans (countFailure _)
  · exact (dropHead s e).trans (countFailure _)

theorem attemptFails (s : Station) : KeepsRanges s s.attemptFails := by
  unfold Station.attemptFails
  split
  · exact refl s
  · next hq =>
    split
    · have hdrive : KeepsRanges s { s with link.drive := .released } := .of_eq rfl
      exact hdrive.trans (failHead (s := { s with link.drive := .released }) hq)
    · exact refl s

theorem findBitClash (s : Station) : KeepsRanges s s.findBitClash := by
  unfold Station.findBitClash
  split
  · exact refl s
  · next e es hq =>
    split
    · have hdrive : KeepsRanges s { s with link.drive := .breaks } := .of_eq rfl
      have hrecord := addRecord { s with link.drive := .breaks }
        (frameFields .bitClash s.settings.stationNumber e.payload)
      exact (hdrive.trans hrecord).trans (failHead hq)
    · exact refl s

theorem refuseFrame (s : Station) (r : FaultReason) (o : Option Station5) : KeepsRanges s (s.refuseFrame r o) :=
  { refl s with
    goodRun := fun _ => by
      show 0 < Config.goodFramesToLeaveMute
      decide
    events := fun h => pushEvent_length_le h _ }

theorem judgeLevels (s : Station) (levels : List Bool) : KeepsRanges s (s.judgeLevels levels) := by
  unfold Station.judgeLevels
  split
  · split
    · exact refuseFrame s _ _
    · exact refl s
    · exact refl s
  · exact refl s

theorem frameRejected (s : Station) : KeepsRanges s s.frameRejected := by
  unfold Station.frameRejected
  split
  · exact (resetGoodRun s).trans (.of_eq rfl)
  · exact refl s

theorem markExpires (s : Station) : KeepsRanges s s.markExpires := by
  unfold Station.markExpires
  split
  · exact refl s
  · split
    · exact .of_eq rfl
    · split
      · next hempty =>
        have hroom : s.txFull = false := by
          unfold Station.txFull
          rw [List.isEmpty_iff.mp hempty]
          rfl
        exact (pushTx hroom _ _).trans (startMark _)
      · exact startMark s

/-! ## The take -/

theorem takeOwn (s : Station) : KeepsRanges s s.takeOwn := by
  have htail := withQueue_sublist s (List.tail_sublist s.link.txq)
  exact (htail.trans (resetFails _)).trans (.of_eq rfl)

theorem noteDuplicate (s : Station) (f : Frame) : KeepsRanges s (s.noteDuplicate f) := by
  unfold Station.noteDuplicate
  split
  · exact addRecord s _
  · exact refl s

theorem unmute (s : Station) (c : Cause) : KeepsRanges s ({ s with link.goodRun := 0 }.returnToResume c) :=
  (resetGoodRun s).trans (returnToResume _ c)

theorem countGoodFrame (s : Station) : KeepsRanges s s.countGoodFrame := by
  unfold Station.countGoodFrame
  split
  · exact refl s
  · split
    · next h => exact withGoodRun s h
    · exact unmute s _

theorem takeOther (s : Station) (f : Frame) : KeepsRanges s (s.takeOther f) :=
  (((noteDuplicate s f).trans (countGoodFrame _)).trans (judgePosition _ _ _)).trans (applyFrame _ false f)

theorem takeFrame (s : Station) (f : Frame) : KeepsRanges s (s.takeFrame f) := by
  have hover : KeepsRanges s s.frameOver := .of_eq rfl
  unfold Station.takeFrame
  split
  · exact refl s
  · split
    · exact (hover.trans (takeOwn _)).trans (applyFrame _ true _)
    · split
      · exact hover.trans (takeOther _ f)
      · exact refl s

/-! ## Sensor inputs -/

theorem makeSighting (s : Station) (p : Pos) (lane : BitVec 2) (cls : BitVec 4) :
    KeepsRanges s (s.makeSighting p lane cls) := by
  have hseq : KeepsRanges s { s with sense.seq := s.sense.seq + 1 } := .of_eq rfl
  exact hseq.trans (enqueue _ _ _)

theorem setSensor (s : Station) (n : Fin 4) (i : SensorInput) : KeepsRanges s (s.setSensor n i) := .of_eq rfl

theorem takeEdge (s : Station) (n : Fin 4) : KeepsRanges s (s.takeEdge n) := by
  unfold Station.takeEdge
  split
  · exact refl s
  · exact (setSensor s n _).trans (makeSighting _ _ _ _)

theorem sensorEdge (s : Station) (n : Fin 4) : KeepsRanges s (s.sensorEdge n) := by
  unfold Station.sensorEdge
  split
  · exact refl s
  · exact refl s
  · exact takeEdge s n
  · exact takeEdge s n
  · exact takeEdge s n
  · exact addRecord s _

theorem sensorRead (s : Station) (n : Fin 4) (level : Bool) : KeepsRanges s (s.sensorRead n level) := by
  unfold Station.sensorRead
  split
  · exact refl s
  · split
    · exact (setSensor s n _).trans (sensorEdge _ n)
    · exact setSensor s n _

/-! ## The service port -/

theorem accept (s : Station) : KeepsRanges s s.accept := by
  unfold Station.accept
  have hjoin : KeepsRanges s
      { s with link.idle := false, link.receiving := false, link.drive := .released,
               ctl.join := .running (s.settings.joinWait.toNat * Config.microsPerMilli) } := .of_eq rfl
  exact hjoin.trans (changeState _ _ _)

theorem clearForStop (s : Station) : KeepsRanges s s.clearForStop :=
  { refl s with
    track := fun _ => Nat.zero_le _
    agenda := fun _ => Nat.zero_le _
    claims := fun _ => Nat.zero_le _
    txq := fun _ => Nat.zero_le _
    fails := fun _ => by show 0 < Config.failuresToMute; decide
    goodRun := fun _ => by show 0 < Config.goodFramesToLeaveMute; decide
    attempts := fun _ => nofun
    channels := fun hs c => by
      show ((s.channels.map fun d : Channel => { d with run := none }).get c).InRange
      rw [get_map]
      exact (hs c).withRun nofun }

/-- Whatever stood before, the reset values lie in their ranges (R64, R159, R185). -/
theorem resetAt (s : Station) (levels : InputLevels) (ties : Nat) : KeepsRanges s (Station.resetAt levels ties) where
  track _ := Nat.zero_le _
  agenda _ := Nat.zero_le _
  claims _ := Nat.zero_le _
  txq _ := Nat.zero_le _
  events _ := Nat.zero_le _
  fails _ := by show 0 < Config.failuresToMute; decide
  goodRun _ := by show 0 < Config.goodFramesToLeaveMute; decide
  attempts _ := nofun
  sub _ := Prescale.counts_pos _
  settings _ := Settings.reset_inRange
  channels _ c := by
    show ((Vector.replicate 4 Channel.reset).get c).InRange
    rw [get_eq_getElem, Vector.getElem_replicate]
    exact Channel.reset_inRange

theorem setCommit (s : Station) (c : Fin 4) (sl : Slot) : KeepsRanges s (s.setCommit c sl) :=
  setChan s c fun hs => (hs c).setSlot sl (((Channel.inRange_iff _).mp (hs c)).1 sl)

theorem writeForm (s : Station) (c : Fin 4) (sl : Slot) {f : Form → Form} (hf : ∀ m : Form, m.InRange → (f m).InRange) :
    KeepsRanges s (s.writeForm c sl f) :=
  setChan s c fun hs => by
    obtain ⟨hlive, hstaged⟩ := ((Channel.inRange_iff _).mp (hs c)).1 sl
    refine (hs c).setSlot sl ⟨?_, hf _ hstaged⟩
    show (if s.ctl.state = .halted then _ else _ : Form).InRange
    split
    · exact hf _ hlive
    · exact hlive

theorem setTemplate (s : Station) (t : Fin 16) {c : Template}
    (hc : (s.settings.templates.get t).length ≠ 0 → c.length ≠ 0) : KeepsRanges s (s.setTemplate t c) :=
  withSettings s rfl fun h => h.setTemplate t (hc (h.template t))

theorem setChannelSettings (s : Station) (c : Fin 4) (x : ChannelSettings) :
    KeepsRanges s (s.setChannelSettings c x) := by
  have hset := withSettings s (x := { s.settings with channels := s.settings.channels.set c.val x c.isLt }) rfl id
  exact hset.trans (conditionsChanged s _)

/-- A configuration item takes a word into its range or refuses it (R185). -/
theorem takeItem {i : ConfigItem} {x : Word} (ht : s.takeItem i x = some t) : KeepsRanges s t := by
  cases i with
  | identity => cases ht
  | void => cases ht
  | prescale =>
    obtain ⟨v, -, rfl⟩ := Option.map_eq_some_iff.mp ht
    exact { refl s with sub := fun _ => v.counts_pos }
  | encoderMode =>
    obtain ⟨v, -, rfl⟩ := Option.map_eq_some_iff.mp ht
    exact (withSettings s (x := { s.settings with encoderMode := v }) rfl id).trans (.of_eq rfl)
  | joinWait =>
    obtain ⟨v, hv, rfl⟩ := Option.map_eq_some_iff.mp ht
    obtain ⟨hlow, -⟩ := rangeValue_bounds hv (by norm_num)
    have hne : v ≠ 0 := fun h0 => absurd (h0 ▸ hlow) (by decide)
    exact withSettings s rfl fun ⟨_, hrest⟩ => ⟨hne, hrest⟩
  | markInterval =>
    obtain ⟨v, hv, rfl⟩ := Option.map_eq_some_iff.mp ht
    exact withSettings s rfl fun ⟨hj, _, hrest⟩ => ⟨hj, markIntervalValue_bounds hv, hrest⟩
  | trackHorizon =>
    obtain ⟨v, hv, rfl⟩ := Option.map_eq_some_iff.mp ht
    obtain ⟨hlow, -⟩ := rangeValue_bounds hv (by norm_num)
    exact withSettings s rfl fun ⟨hj, hm, _, hrest⟩ => ⟨hj, hm, hlow, hrest⟩
  | claimHorizon =>
    obtain ⟨v, hv, rfl⟩ := Option.map_eq_some_iff.mp ht
    obtain ⟨hlow, -⟩ := rangeValue_bounds hv (by norm_num)
    exact withSettings s rfl fun ⟨hj, hm, htr, _, hrest⟩ => ⟨hj, hm, htr, hlow, hrest⟩
  | attnThreshold =>
    obtain ⟨v, hv, rfl⟩ := Option.map_eq_some_iff.mp ht
    obtain ⟨hlow, hhigh⟩ := rangeValue_bounds hv (by norm_num)
    exact withSettings s rfl fun ⟨hj, hm, htr, hcl, _, _, hrest⟩ => ⟨hj, hm, htr, hcl, hlow, hhigh, hrest⟩
  | templateOrigins n => cases ht; exact setTemplate s n id
  | templateSelect n =>
    obtain ⟨c, hc, rfl⟩ := Option.map_eq_some_iff.mp ht
    exact setTemplate s n fun h => (Template.writeSelect_length hc).trans_ne h
  | templateTiming n =>
    obtain ⟨c, hc, rfl⟩ := Option.map_eq_some_iff.mp ht
    exact setTemplate s n fun h => (Template.writeTiming_length hc).trans_ne h
  | templateWindow n =>
    obtain ⟨c, hc, rfl⟩ := Option.map_eq_some_iff.mp ht
    exact setTemplate s n fun _ => Template.writeWindow_length hc
  | channelSettings c =>
    obtain ⟨v, -, rfl⟩ := Option.map_eq_some_iff.mp ht
    exact setChannelSettings s c v
  | formShape c sl =>
    obtain ⟨f, hf, rfl⟩ := Option.map_eq_some_iff.mp ht
    exact writeForm s c sl fun _ => shapeFields_inRange hf
  | formWidths c sl =>
    obtain ⟨f, hf, rfl⟩ := Option.map_eq_some_iff.mp ht
    exact writeForm s c sl fun _ => widthsFields_inRange hf
  | formCap c sl =>
    obtain ⟨f, hf, rfl⟩ := Option.map_eq_some_iff.mp ht
    exact writeForm s c sl fun _ => capField_inRange hf
  | sensorMode n => cases ht; exact withSettings s rfl id
  | stationNumber | bitRate | skewTolerance | sensorGap =>
    obtain ⟨v, -, rfl⟩ := Option.map_eq_some_iff.mp ht
    exact withSettings s rfl id

theorem of_portAction (h : PortAction s t) : KeepsRanges s t := by
  cases h with
  | nothing => exact refl s
  | accept => exact accept s
  | stop => exact (clearForStop s).trans (changeState _ _ _)
  | resume => exact unmute s _
  | sighting p lane cls => exact makeSighting s p lane cls
  | host p => exact enqueue s p .host
  | removal tag => exact removeItem s tag
  | request c sl => exact fireRequest s c sl _ _
  | commit c sl => exact setCommit s c sl
  | pop e es he =>
    exact { refl s with
      events := fun h => by
        rw [he] at h
        exact (Nat.le_succ _).trans h }
  | item i x _ ht => exact takeItem ht

theorem of_portEffect (h : PortEffect s t) : KeepsRanges s t := by
  cases h with
  | acts p p' hu ht =>
    have hport : KeepsRanges s { s with port := p } := .of_eq rfl
    rw [ht]
    exact (hport.trans (of_portAction hu)).trans (.of_eq rfl)
  | reset levels => exact resetAt s levels s.ties

/-! ## Every step -/

theorem effectOf (c : Instr) (s : Station) : KeepsRanges s (Machine.effectOf c s) := by
  cases c with
  | encoderCount new => exact encoderChange s new
  | startBit => exact seeStartBit s
  | idleGap => exact seeIdleGap s
  | frameStart => exact startFrame s
  | lostArbitration => exact loseArbitration s
  | bitClash => exact findBitClash s
  | failedAttempt => exact attemptFails s
  | frameFault levels => exact judgeLevels s levels
  | frameRejected => exact frameRejected s
  | frameTake f => exact takeFrame s f
  | markTimerExpiry => exact markExpires s
  | joinTimeout => exact joinExpires s
  | sensorInputChange n level => exact sensorRead s n level
  | auxInputChange n level => exact auxRead s n level
  | delayExpiry d => exact delayExpires s d
  | highWidthExpiry d => exact highExpires s d
  | lowWidthExpiry d => exact lowExpires s d
  | holdCapExpiry d => exact holdCapExpires s d
  | _ => exact of_portEffect (effectOf_port rfl s)

theorem tick (s : Station) : KeepsRanges s s.tick :=
  { refl s with
    channels := fun hs c => by
      show ((s.channels.map Channel.tick).get c).InRange
      rw [get_map]
      exact (hs c).tick }

theorem step {s t : State} (h : Machine.step s = .next t) : KeepsRanges s.toStation t.toStation := by
  unfold Machine.step at h
  split at h
  · cases h
    exact (tick s.toStation).trans (noteChoice _ _)
  · rw [exec_eq_effectOf] at h
    cases h
    exact effectOf _ _

theorem withinCapacities (h : KeepsRanges s t) (hs : s.WithinCapacities) : t.WithinCapacities := by
  obtain ⟨htrack, hagenda, hclaims, htxq, hevents⟩ := hs
  exact ⟨h.track htrack, h.agenda hagenda, h.claims hclaims, h.txq htxq, h.events hevents⟩

theorem linkCountsInRange (h : KeepsRanges s t) (hs : s.LinkCountsInRange) : t.LinkCountsInRange := by
  obtain ⟨hfails, hgood, hattempts⟩ := hs
  exact ⟨h.fails hfails, h.goodRun hgood, h.attempts hattempts⟩

end KeepsRanges

/-- Settles O54: each operation of the blocks keeps each capacity and each range by itself, since what grows looks for
room first, and a write checks its range. -/
theorem everyStepKeepsTheRanges : Obligations.EveryStepKeepsTheRanges :=
  ⟨fun _ _ hs h => (KeepsRanges.step h).withinCapacities hs, fun _ _ hs h => (KeepsRanges.step h).linkCountsInRange hs,
    fun _ _ hs h => (KeepsRanges.step h).sub hs, fun _ _ hs h => (KeepsRanges.step h).settings hs,
    fun _ _ hs h => (KeepsRanges.step h).channels hs⟩

end Sys2Proof.Machine

/-! PROOF. Every command completes; refusals that reach the port alone, START and STOP, and what a device reset leaves. -/

namespace Sys2Proof.Machine

/-- Settles O2: what a command does to the station is a function of it, and the queue is not part of the station. -/
theorem everyCommandCompletes : Obligations.EveryCommandCompletes :=
  fun c s => ⟨{ s with toStation := effectOf c s.toStation }, exec_eq_effectOf c s, rfl⟩

/-! ## Arguments out of range -/

theorem positionArg_out {now : Pos} {choice given : Word}
    (h : 1 < choice.toNat ∨ choice = 0 ∧ 16777215 < given.toNat) : positionArg now choice given = none := by
  unfold positionArg
  rcases h with h | ⟨rfl, h⟩
  · rw [if_neg (by rintro rfl; simp at h), if_neg (by rintro rfl; simp at h)]
  · rw [if_neg (by decide), if_pos rfl, if_neg (by omega)]

theorem verdictArg_out {w : Word} (h₁ : w ≠ 1) (h₂ : w ≠ 2) : verdictArg w = none := by
  unfold verdictArg
  rw [if_neg h₁, if_neg h₂]

namespace Station

variable {s : Station}

/-! ## A COMMAND write that is refused -/

/-- The station as a command's body finds it: COMMAND holds the code, and the write is taken (R175, R177, R180). -/
def commandTaken (s : Station) (code : BitVec 8) : Station :=
  { s with port.command := code, port.access := .ok, port.miso := 0 }

/-- A body that leaves the station as it finds it changes COMMAND, RESULT and the answer to the write alone. -/
theorem runCommand_of_unchanged {code : BitVec 8} {body : Station → Answer} {result : ResultCode} {detail : BitVec 16}
    (h : body (s.commandTaken code) = { station := s.commandTaken code, code := result, detail := detail }) :
    s.runCommand code body = { s with port := s.port.answered code result detail } :=
  runCommand_of h

theorem start_of_not_halted (h : s.ctl.state ≠ .halted) : s.start = s.answer .refusedState := if_pos h

theorem stop_of_halted (h : s.ctl.state = .halted) : Station.stop s = s.answer .refusedState := if_pos h

theorem stop_of_not_halted (h : s.ctl.state ≠ .halted) :
    Station.stop s = (s.clearForStop.changeState .halted .stop).answer .done := if_neg h

theorem resume_of_not_mute (h : s.ctl.state ≠ .mute) : Station.resume s = s.answer .refusedState := if_pos h

theorem runCommand_of_not_inService {code : BitVec 8} {body : Station → Answer} (h : s.ctl.state.inService = false) :
    s.runCommand code (Station.whenInService body) = { s with port := s.port.answered code .refusedState 0 } :=
  runCommand_of_unchanged (whenInService_of_not h)

theorem runCommand_of_inService_unchanged {code : BitVec 8} {body : Station → Answer} {result : ResultCode}
    (hin : s.ctl.state.inService = true) (h : body (s.commandTaken code) = (s.commandTaken code).answer result) :
    s.runCommand code (Station.whenInService body) = { s with port := s.port.answered code result 0 } :=
  runCommand_of_unchanged ((whenInService_of_inService (s := s.commandTaken code) hin).trans h)

theorem not_inService_of_ne (hs : s.ctl.state ≠ .settling) (ha : s.ctl.state ≠ .active) :
    s.ctl.state.inService = false := by
  rw [← Bool.not_eq_true, StationState.inService_iff]
  exact not_or.mpr ⟨hs, ha⟩

/-! ## Bodies whose arguments are out of range -/

theorem postSightArgs_of_out (h : 3 < s.port.args.r0.toNat ∨ 15 < s.port.args.r1.toNat ∨ 1 < s.port.args.r2.toNat ∨
    s.port.args.r2 = 0 ∧ 16777215 < s.port.args.r3.toNat) : s.postSightArgs = s.answer .refusedArg := by
  unfold Station.postSightArgs
  rcases h with h | h | h
  · rw [laneArg_out h]
  · rw [classArg_out h]
    cases laneArg s.port.args.r0 <;> rfl
  · rw [positionArg_out h]
    cases laneArg s.port.args.r0 <;> cases classArg s.port.args.r1 <;> rfl

theorem postVerdictArgs_of_out (h : 31 < s.port.args.r0.toNat ∨ 255 < s.port.args.r1.toNat ∨
    s.port.args.r2 ≠ 1 ∧ s.port.args.r2 ≠ 2) : s.postVerdictArgs = s.answer .refusedArg := by
  unfold Station.postVerdictArgs
  rcases or_assoc.mpr h with h | ⟨h₁, h₂⟩
  · rw [tagArg_out h]
  · rw [verdictArg_out h₁ h₂]
    cases tagArg s.port.args.r0 s.port.args.r1 <;> rfl

theorem retireItemArgs_of_out (h : 31 < s.port.args.r0.toNat ∨ 255 < s.port.args.r1.toNat) :
    s.retireItemArgs = s.answer .refusedArg := by
  unfold Station.retireItemArgs
  rw [tagArg_out h]

/-- The codes that run a command are 1 to 10 (R180). -/
theorem commandWrite_of_unassigned {code : BitVec 8} (h : code = 0 ∨ 11 ≤ code.toNat) :
    s.commandWrite code = s.unassigned code := by
  have hout : code.toNat = 0 ∨ 11 ≤ code.toNat := h.imp_left (congrArg BitVec.toNat)
  unfold Station.commandWrite
  split
  case h_11 => rfl
  all_goals omega

end Station

/-- Settles O39: each refused body leaves the station as it finds it, for its state, its arguments or its code. -/
theorem refusedCommandsChangeNothing : Obligations.RefusedCommandsChangeNothing := by
  intro s
  refine ⟨fun h => exec_of_effect ?_, fun h => exec_of_effect ?_, fun h => exec_of_effect ?_, fun hs ha => ?_,
    fun hin => ?_, fun code h => exec_of_effect ?_⟩
  · exact Station.runCommand_of_unchanged (Station.start_of_not_halted h)
  · exact Station.runCommand_of_unchanged (Station.stop_of_halted h)
  · exact Station.runCommand_of_unchanged (Station.resume_of_not_mute h)
  · have hout : s.ctl.state.inService = false := Station.not_inService_of_ne hs ha
    exact ⟨exec_of_effect (Station.runCommand_of_not_inService hout),
      exec_of_effect (Station.runCommand_of_not_inService hout),
      exec_of_effect (Station.runCommand_of_not_inService hout)⟩
  · have hin : s.ctl.state.inService = true := (StationState.inService_iff _).mpr hin
    refine ⟨fun h => exec_of_effect ?_, fun h => exec_of_effect ?_, fun h => exec_of_effect ?_⟩
    · exact Station.runCommand_of_inService_unchanged hin (Station.postSightArgs_of_out h)
    · exact Station.runCommand_of_inService_unchanged hin (Station.postVerdictArgs_of_out h)
    · exact Station.runCommand_of_inService_unchanged hin (Station.retireItemArgs_of_out h)
  · exact (Station.commandWrite_of_unassigned h).trans (Station.runCommand_of_unchanged rfl)

/-! ## START and STOP -/

namespace Station

variable {s : Station}

theorem accept_eq (s : Station) : s.accept =
    { s with
      ctl.state := .joining
      ctl.join := .running (1000 * s.settings.joinWait.toNat)
      link.idle := false
      link.receiving := false
      link.drive := .released
      events := s.eventsWith (stateChange s.ctl.state .joining .start) } := by
  rw [Nat.mul_comm]
  rfl

/-- A START that validation refuses answers with what it finds (R52, R53). -/
theorem startCommand_of_fault {code : ResultCode} {detail : BitVec 16} (h : s.ctl.state = .halted)
    (hv : s.validate = some (code, detail)) :
    s.startCommand = { s with port := s.port.answered 1 code detail } :=
  runCommand_of_unchanged (start_refused h hv)

end Station

/-- Settles O40: validation decides, and an accepted START is the entry to JOINING. -/
theorem startIsRefusedOrAccepted : Obligations.StartIsRefusedOrAccepted := by
  refine fun s hst => ⟨fun code detail hv => exec_of_effect (Station.startCommand_of_fault hst hv),
    fun hv => exec_of_effect ?_⟩
  have hanswer := Station.start_accepted (s := s.toStation.commandTaken 1) hst hv
  rw [Station.accept_eq] at hanswer
  rw [← hst]
  exact Station.runCommand_of hanswer

/-- Settles O42: what STOP clears, then the entry to HALTED. -/
theorem stopHaltsAndClears : Obligations.StopHaltsAndClears := fun s h =>
  exec_of_effect (Station.runCommand_of (Station.stop_of_not_halted (s := s.toStation.commandTaken 2) h))

/-! ## Device reset -/

namespace Station

theorem resetAt_chan (levels : InputLevels) (ties : Nat) (c : Fin 4) :
    (resetAt levels ties).chan c = Channel.reset :=
  Vector.getElem_replicate c.isLt

theorem resetAt_channelSettings (levels : InputLevels) (ties : Nat) (c : Fin 4) :
    (resetAt levels ties).settings.channels.get c = ChannelSettings.reset :=
  Vector.getElem_replicate c.isLt

/-- No sequence runs and every polarity is active-high, so every output pin is low (R143, R159). -/
theorem resetAt_outputPin (levels : InputLevels) (ties : Nat) (c : Fin 4) :
    (resetAt levels ties).outputPin c = false := by
  unfold Station.outputPin
  rw [resetAt_channelSettings]
  show ((resetAt levels ties).chan c).active = false
  rw [resetAt_chan]
  rfl

end Station

/-- Settles O4: the station after the reset, piece by piece, whatever stood before. -/
theorem deviceResetRestoresEverything : Obligations.DeviceResetRestoresEverything := by
  intro levels s
  refine ⟨{ s with toStation := Station.resetAt levels s.ties }, exec_of_effect rfl, rfl, rfl, rfl, rfl, rfl,
    fun n => get_map _ levels.sensors n, rfl, rfl, rfl, rfl, rfl, rfl, fun c => ⟨?_, ?_⟩, rfl, rfl, rfl, rfl⟩
  · exact Station.resetAt_chan levels s.ties c
  · exact Station.resetAt_outputPin levels s.ties c

namespace Station

theorem resetAt_withinCapacities (levels : InputLevels) (ties : Nat) : (resetAt levels ties).WithinCapacities :=
  ⟨Nat.zero_le _, Nat.zero_le _, Nat.zero_le _, Nat.zero_le _, Nat.zero_le _⟩

theorem resetAt_linkCountsInRange (levels : InputLevels) (ties : Nat) : (resetAt levels ties).LinkCountsInRange :=
  ⟨show 0 < Config.failuresToMute by decide, show 0 < Config.goodFramesToLeaveMute by decide, nofun⟩

theorem resetAt_channelsInRange (levels : InputLevels) (ties : Nat) : (resetAt levels ties).ChannelsInRange := by
  intro c
  rw [resetAt_chan]
  exact Channel.reset_inRange

end Station

/-- Settles O60: the counts and settings start in range, and the invariants that every step keeps block by block hold
after a reset with the tables, the agenda and the queue empty. -/
theorem invariantsHoldAfterReset : Obligations.InvariantsHoldAfterReset := by
  rintro levels ties _ rfl
  obtain ⟨hline, hctl, hempty, hval⟩ := inControl_keptByBlocks.resetAt levels ties
  exact ⟨Station.resetAt_withinCapacities levels ties, Station.resetAt_linkCountsInRange levels ties,
    Prescale.counts_pos _, Settings.reset_inRange, Station.resetAt_channelsInRange levels ties, hline, hctl, hempty, hval,
    agendaConsistent_keptByBlocks.resetAt levels ties, ⟨List.Pairwise.nil, nofun⟩, List.Pairwise.nil⟩

end Sys2Proof.Machine

/-! PROOF. START validation: the first fault of each check, and the cycle that a path of chains comes to (R53). -/

namespace Sys2Proof.Machine

/-! ## The first of several, and the lower of two -/

theorem find?_finRange_eq_some {n : Nat} {p : Fin n → Bool} {t : Fin n} (ht : p t = true)
    (hu : ∀ u, u < t → p u = false) : (List.finRange n).find? p = some t := by
  rw [← Fin.find?_eq_find?_finRange]
  exact Fin.find?_eq_some_iff.mpr ⟨ht, hu⟩

theorem find?_finRange_eq_none {n : Nat} {p : Fin n → Bool} (h : ∀ t, p t = false) :
    (List.finRange n).find? p = none := by
  rw [← Fin.find?_eq_find?_finRange]
  exact Fin.find?_eq_none_iff.mpr h

theorem lowerChannel_le_left (a : Fin 4) (b : Option (Fin 4)) : lowerChannel a b ≤ a := by
  unfold lowerChannel
  split
  · exact le_refl a
  · split
    · next h => exact h.le
    · exact le_refl a

theorem lowerChannel_le_of_eq_some (a : Fin 4) {b : Option (Fin 4)} {d : Fin 4} (h : b = some d) :
    lowerChannel a b ≤ d := by
  subst h
  unfold lowerChannel
  dsimp only
  split
  · exact le_refl d
  · next h => exact not_lt.mp h

theorem lowerChannel_eq_or (a : Fin 4) (b : Option (Fin 4)) : lowerChannel a b = a ∨ b = some (lowerChannel a b) := by
  unfold lowerChannel
  split
  · exact .inl rfl
  · split
    · exact .inr rfl
    · exact .inl rfl

namespace Station

variable {s : Station}

/-! ## Paths of chains -/

theorem chainAfter_add (m n : Nat) (c : Fin 4) :
    s.chainAfter (m + n) c = (s.chainAfter m c).bind (s.chainAfter n) := by
  induction m generalizing c with
  | zero => rw [Nat.zero_add]; rfl
  | succ m ih =>
    rw [Nat.succ_add, Station.chainAfter, Station.chainAfter, Option.bind_assoc]
    exact congrArg _ (funext ih)

theorem chainAfter_add_of {m : Nat} {c d : Fin 4} (h : s.chainAfter m c = some d) (n : Nat) :
    s.chainAfter (m + n) c = s.chainAfter n d := by
  rw [chainAfter_add, h, Option.bind_some]

/-- `x` lies on a cycle that closes after `p` chains; a cycle of four channels closes after four at the latest. -/
structure OnCycle (s : Station) (p : Nat) (x : Fin 4) : Prop where
  pos : 1 ≤ p
  le_four : p ≤ 4
  returns : s.chainAfter p x = some x

/-- Of the five channels that a path of four chains names, two are the same, and from there it runs round a cycle. -/
theorem onCycle_of_chainAfter_four {c x : Fin 4} (h : s.chainAfter 4 c = some x) : ∃ p, s.OnCycle p x := by
  obtain ⟨i, j, hne, heq⟩ := Fintype.exists_ne_map_eq_of_card_lt
    (fun i : Fin 5 => (s.chainAfter i.val c).getD 0) (by decide)
  wlog hij : i < j generalizing i j
  · exact this j i hne.symm heq.symm (lt_of_le_of_ne (not_lt.mp hij) hne.symm)
  have present : ∀ k : Fin 5, ∃ y, s.chainAfter k.val c = some y := by
    intro k
    refine Option.ne_none_iff_exists'.mp fun hk => ?_
    have hlast := chainAfter_add (s := s) k.val (4 - k.val) c
    rw [hk, Nat.add_sub_cancel' (by omega), h] at hlast
    cases hlast
  obtain ⟨y, hi⟩ := present i
  obtain ⟨y', hj⟩ := present j
  obtain rfl : y = y' := by simpa only [hi, hj, Option.getD_some] using heq
  have hij : i.val < j.val := hij
  -- The period brings `y` back to itself, and `x` is `4 - i` chains behind `y`.
  have hy : s.chainAfter (j.val - i.val) y = some y := by
    rw [← chainAfter_add_of hi, Nat.add_sub_cancel' hij.le, hj]
  have hx : s.chainAfter (4 - i.val) y = some x := by
    rw [← chainAfter_add_of hi, Nat.add_sub_cancel' (by omega), h]
  refine ⟨j.val - i.val, by omega, by omega, ?_⟩
  rw [← chainAfter_add_of hx, Nat.add_comm, chainAfter_add_of hy, hx]

namespace OnCycle

variable {p : Nat} {x : Fin 4}

theorem chainAfter_mod (h : s.OnCycle p x) (n : Nat) : s.chainAfter n x = s.chainAfter (n % p) x := by
  induction n using Nat.strongRecOn with
  | _ n ih =>
    by_cases hn : n < p
    · rw [Nat.mod_eq_of_lt hn]
    · have hle : p ≤ n := not_lt.mp hn
      calc s.chainAfter n x = s.chainAfter (p + (n - p)) x := by rw [Nat.add_sub_cancel' hle]
        _ = s.chainAfter (n - p) x := chainAfter_add_of h.returns _
        _ = s.chainAfter ((n - p) % p) x := ih _ (Nat.sub_lt (h.pos.trans hle) h.pos)
        _ = s.chainAfter (n % p) x := by rw [← Nat.mod_eq_sub_mod hle]

theorem chainAfter_ne_none (h : s.OnCycle p x) (n : Nat) : s.chainAfter n x ≠ none := by
  intro hn
  have hend : s.chainAfter (n * p) x = none := by
    rw [← Nat.add_sub_cancel' (Nat.le_mul_of_pos_right n h.pos), chainAfter_add, hn, Option.bind_none]
  rw [h.chainAfter_mod, Nat.mul_mod_left] at hend
  cases hend

/-- Every channel that a cycle leads to lies on it, fewer than four chains away. -/
theorem within_three (h : s.OnCycle p x) {n : Nat} {y : Fin 4} (hy : s.chainAfter n x = some y) :
    ∃ k, k ≤ 3 ∧ s.chainAfter k x = some y := by
  have hlt := Nat.mod_lt n h.pos
  have hle := h.le_four
  exact ⟨n % p, by omega, by rw [← h.chainAfter_mod, hy]⟩

/-- The channels that a cycle leads to lie on it. -/
theorem of_reached (h : s.OnCycle p x) {k : Nat} {y : Fin 4} (hy : s.chainAfter k x = some y) : s.OnCycle p y := by
  refine ⟨h.pos, h.le_four, ?_⟩
  rw [← chainAfter_add_of hy, Nat.add_comm, chainAfter_add_of h.returns, hy]

end OnCycle

/-- A path of chains goes on for ever where it goes on for four chains. -/
theorem chainAfter_four_eq_none_iff (c : Fin 4) : s.chainAfter 4 c = none ↔ ∃ n, s.chainAfter n c = none := by
  refine ⟨fun h => ⟨4, h⟩, fun ⟨n, hn⟩ => Option.eq_none_iff_forall_ne_some.mpr fun x hx => ?_⟩
  obtain ⟨p, hp⟩ := onCycle_of_chainAfter_four hx
  refine hp.chainAfter_ne_none n ?_
  rw [← chainAfter_add_of hx, Nat.add_comm, chainAfter_add, hn, Option.bind_none]

/-! ## The lowest channel of a cycle -/

theorem cycleLowest_reached (s : Station) (x : Fin 4) : ∃ k, s.chainAfter k x = some (s.cycleLowest x) := by
  unfold Station.cycleLowest
  rcases lowerChannel_eq_or (lowerChannel (lowerChannel x (s.chainAfter 1 x)) (s.chainAfter 2 x)) (s.chainAfter 3 x)
    with h | h
  · rw [h]
    rcases lowerChannel_eq_or (lowerChannel x (s.chainAfter 1 x)) (s.chainAfter 2 x) with h | h
    · rw [h]
      rcases lowerChannel_eq_or x (s.chainAfter 1 x) with h | h
      · rw [h]
        exact ⟨0, rfl⟩
      · exact ⟨1, h⟩
    · exact ⟨2, h⟩
  · exact ⟨3, h⟩

theorem cycleLowest_le {k : Nat} {x y : Fin 4} (hk : k ≤ 3) (hy : s.chainAfter k x = some y) : s.cycleLowest x ≤ y := by
  unfold Station.cycleLowest
  match k, hk with
  | 0, _ =>
    obtain rfl : x = y := Option.some.inj hy
    exact (lowerChannel_le_left _ _).trans ((lowerChannel_le_left _ _).trans (lowerChannel_le_left _ _))
  | 1, _ => exact (lowerChannel_le_left _ _).trans ((lowerChannel_le_left _ _).trans (lowerChannel_le_of_eq_some _ hy))
  | 2, _ => exact (lowerChannel_le_left _ _).trans (lowerChannel_le_of_eq_some _ hy)
  | 3, _ => exact lowerChannel_le_of_eq_some _ hy

theorem OnCycle.cycleLowest_le_of_reached {p n : Nat} {x y : Fin 4} (h : s.OnCycle p x)
    (hy : s.chainAfter n x = some y) : s.cycleLowest x ≤ y := by
  obtain ⟨k, hk, hky⟩ := h.within_three hy
  exact cycleLowest_le hk hky

/-! ## The three checks -/

theorem offsetFault_iff (t : Fin 16) : s.offsetFault t = true ↔
    (s.template t).enabled = true ∧ s.settings.trackHorizon.toNat ≤ (s.template t).offset.toNat := by
  rw [Station.offsetFault, Bool.and_eq_true, decide_eq_true_iff]

theorem offsetFault_eq_false {t : Fin 16}
    (h : (s.template t).enabled = true → (s.template t).offset.toNat < s.settings.trackHorizon.toNat) :
    s.offsetFault t = false := by
  rw [← Bool.not_eq_true, offsetFault_iff]
  exact fun ⟨he, hle⟩ => absurd (h he) (not_lt.mpr hle)

theorem windowFault_iff (t : Fin 16) : s.windowFault t = true ↔
    (s.template t).enabled = true ∧ (s.template t).group ≠ none ∧
      s.settings.claimHorizon.toNat < (s.template t).offset.toNat + (s.template t).length.toNat := by
  rw [Station.windowFault, Template.windowed, Bool.and_eq_true, Bool.and_eq_true, decide_eq_true_iff, and_assoc,
    Option.isSome_iff_ne_none]

theorem windowFault_eq_false {t : Fin 16} (h : (s.template t).enabled = true → (s.template t).group ≠ none →
    (s.template t).offset.toNat + (s.template t).length.toNat ≤ s.settings.claimHorizon.toNat) :
    s.windowFault t = false := by
  rw [← Bool.not_eq_true, windowFault_iff]
  exact fun ⟨he, hg, hlt⟩ => absurd (h he hg) (not_le.mpr hlt)

theorem chainFault_eq_none {c : Fin 4} (h : ∃ n, s.chainAfter n c = none) : s.chainFault c = none := by
  rw [Station.chainFault, (chainAfter_four_eq_none_iff c).mpr h, Option.map_none]

/-- A path that does not end comes to a cycle, and the fault names the cycle's lowest channel. -/
theorem exists_chainFault {d : Fin 4} (h : ∀ n, s.chainAfter n d ≠ none) :
    ∃ c, s.chainFault d = some c ∧ (∃ m, s.chainAfter m d = some c) ∧ (∃ n, 1 ≤ n ∧ s.chainAfter n c = some c) ∧
      ∀ m x, s.chainAfter m c = some x → c ≤ x := by
  obtain ⟨x, hx⟩ := Option.ne_none_iff_exists'.mp (h 4)
  obtain ⟨p, hp⟩ := onCycle_of_chainAfter_four hx
  obtain ⟨k, hk⟩ := s.cycleLowest_reached x
  refine ⟨s.cycleLowest x, by rw [Station.chainFault, hx, Option.map_some], ⟨4 + k, ?_⟩,
    ⟨p, hp.pos, (hp.of_reached hk).returns⟩, fun m y hy => ?_⟩
  · rw [chainAfter_add_of hx, hk]
  · exact hp.cycleLowest_le_of_reached (by rw [chainAfter_add_of hk, hy])

/-! ## The checks in their order -/

theorem validate_of_offsetFault {t : Fin 16} (ht : s.offsetFault t = true) (hu : ∀ u, u < t → s.offsetFault u = false) :
    s.validate = some (.refusedOffset, BitVec.ofNat 16 t.val) := by
  rw [Station.validate, find?_finRange_eq_some ht hu]

theorem validate_of_windowFault (ho : ∀ u, s.offsetFault u = false) {t : Fin 16} (ht : s.windowFault t = true)
    (hu : ∀ u, u < t → s.windowFault u = false) : s.validate = some (.refusedWindow, BitVec.ofNat 16 t.val) := by
  rw [Station.validate, find?_finRange_eq_none ho, find?_finRange_eq_some ht hu]

theorem validate_of_chainFault (ho : ∀ u, s.offsetFault u = false) (hw : ∀ u, s.windowFault u = false) {d c : Fin 4}
    (hd : s.chainFault d = some c) (he : ∀ e, e < d → s.chainFault e = none) :
    s.validate = some (.refusedChain, BitVec.ofNat 16 c.val) := by
  have hfirst : (List.finRange 4).findSome? s.chainFault = some c := by
    rw [← Fin.findSome?_eq_findSome?_finRange]
    exact Fin.findSome?_eq_some_iff.mpr ⟨d, hd, he⟩
  rw [Station.validate, find?_finRange_eq_none ho, find?_finRange_eq_none hw, hfirst]

theorem validate_of_no_fault (ho : ∀ u, s.offsetFault u = false) (hw : ∀ u, s.windowFault u = false)
    (hc : ∀ d, s.chainFault d = none) : s.validate = none := by
  have hnone : (List.finRange 4).findSome? s.chainFault = none := by
    rw [← Fin.findSome?_eq_findSome?_finRange]
    exact Fin.findSome?_eq_none_iff.mpr hc
  rw [Station.validate, find?_finRange_eq_none ho, find?_finRange_eq_none hw, hnone]

end Station

/-- Settles O41: the first fault of the first check that finds one; a path of chains that does not end comes to a cycle
within four chains. -/
theorem validationFindsTheFirstFault : Obligations.ValidationFindsTheFirstFault := by
  refine ⟨fun s code number hst hv => exec_of_effect (Station.startCommand_of_fault hst hv), fun s =>
    ⟨fun t ht hu => ?_, fun hoffset => ?_⟩⟩
  · exact Station.validate_of_offsetFault ((Station.offsetFault_iff t).mpr ht)
      fun u hut => Station.offsetFault_eq_false (hu u hut)
  · have ho := fun u => Station.offsetFault_eq_false (hoffset u)
    refine ⟨fun t ht hu => ?_, fun hwindow => ?_⟩
    · exact Station.validate_of_windowFault ho ((Station.windowFault_iff t).mpr ht)
        fun u hut => Station.windowFault_eq_false (hu u hut)
    · have hw := fun u => Station.windowFault_eq_false (hwindow u)
      refine ⟨fun hc => Station.validate_of_no_fault ho hw fun d => Station.chainFault_eq_none (hc d), fun d hd he => ?_⟩
      obtain ⟨c, hfault, hcycle⟩ := Station.exists_chainFault hd
      exact ⟨c, Station.validate_of_chainFault ho hw hfault fun e hed => Station.chainFault_eq_none (he e hed), hcycle⟩

end Sys2Proof.Machine

/-! PROOF. Sightings: readings of a sensor input, edges by station state and gap, and the frames that sightings and the
controller's commands put into the transmit queue. -/

namespace Sys2Proof.Machine

/-! ## Sensor settings and the gap -/

theorem SensorSettings.isEdge_iff (c : SensorSettings) (level : Bool) :
    c.isEdge level = true ↔ c.enabled = true ∧ (c.edge = .rising ↔ level = true) := by
  cases he : c.edge <;> simp [SensorSettings.isEdge, he]

theorem SensorSettings.isEdge_eq_false {c : SensorSettings} {level : Bool}
    (h : c.enabled = false ∨ ¬(c.edge = .rising ↔ level = true)) : c.isEdge level = false := by
  rw [← Bool.not_eq_true, c.isEdge_iff, not_and_or, Bool.not_eq_true]
  exact h

theorem suppressed_iff (p : Pos) (last : Option Pos) (gap : BitVec 16) :
    suppressed p last gap = true ↔ ∃ l, last = some l ∧ dist p l < gap.toNat := by
  cases last <;> simp [suppressed]

theorem suppressed_eq_false {p : Pos} {last : Option Pos} {gap : BitVec 16}
    (h : ∀ l, last = some l → gap.toNat ≤ dist p l) : suppressed p last gap = false := by
  rw [← Bool.not_eq_true, suppressed_iff]
  rintro ⟨l, hl, hlt⟩
  exact Nat.not_lt.mpr (h l hl) hlt

/-! ## TXQ_FULL by the frame that finds no room (R165, R166) -/

theorem frameFields_sight (kind : EventKind) (own : Station5) (seq : Seq8) (p : Pos) (lane : BitVec 2) (cls : BitVec 4) :
    frameFields kind own (.sight seq p lane cls) =
      { kind := kind, item := some { origin := own, seq := seq }, reason := some 0 } := rfl

theorem frameFields_verdict (kind : EventKind) (own : Station5) (tag : Tag) (v : BitVec 2) :
    frameFields kind own (.verdict tag v) = { kind := kind, item := some tag, reason := some 1 } := rfl

theorem frameFields_retire (kind : EventKind) (own : Station5) (tag : Tag) :
    frameFields kind own (.retire tag) = { kind := kind, item := some tag, reason := some 4 } := rfl

namespace Station

variable {s : Station}

/-! ## Sightings (R71, R72) -/

theorem makeSighting_of_room (h : s.link.txq.length < 16) (p : Pos) (lane : BitVec 2) (cls : BitVec 4) :
    s.makeSighting p lane cls =
      { s with
        sense.seq := s.sense.seq + 1
        link.txq := s.link.txq ++
          [{ payload := .sight s.sense.seq p lane cls, attempts := 0, origin := .sensor, inFlight := false }] } :=
  enqueue_of_room (s := { s with sense.seq := s.sense.seq + 1 }) h _ _

theorem makeSighting_of_full (h : 16 ≤ s.link.txq.length) (p : Pos) (lane : BitVec 2) (cls : BitVec 4) :
    s.makeSighting p lane cls =
      { s with
        sense.seq := s.sense.seq + 1
        events := s.eventsWith { kind := .txqFull, item := some { origin := s.settings.stationNumber, seq := s.sense.seq },
                                 reason := some 0 } } := by
  rw [← frameFields_sight .txqFull s.settings.stationNumber s.sense.seq p lane cls]
  exact enqueue_of_full (s := { s with sense.seq := s.sense.seq + 1 }) h _ _

/-! ## Sensor edges (R68 to R70) -/

@[simp] theorem sensor_setSensor (s : Station) (n : Fin 4) (i : SensorInput) : (s.setSensor n i).sensor n = i :=
  get_set_same _ _ _

@[simp] theorem setSensor_setSensor (s : Station) (n : Fin 4) (i j : SensorInput) :
    (s.setSensor n i).setSensor n j = s.setSensor n j := by
  simp [setSensor]

theorem takeEdge_of_suppressed {n : Fin 4} {l : Pos} (hl : (s.sensor n).last = some l)
    (h : dist s.pos.count l < (s.settings.sensors.get n).gap.toNat) : s.takeEdge n = s :=
  if_pos ((suppressed_iff _ _ _).mpr ⟨l, hl, h⟩)

theorem takeEdge_of_clear {n : Fin 4}
    (h : ∀ l, (s.sensor n).last = some l → (s.settings.sensors.get n).gap.toNat ≤ dist s.pos.count l) :
    s.takeEdge n = (s.setSensor n { s.sensor n with last := some s.pos.count }).makeSighting s.pos.count
      (s.settings.sensors.get n).lane (s.settings.sensors.get n).cls :=
  if_neg (by simp [suppressed_eq_false h])

/-- Edges are taken in SETTLING, ACTIVE and DRIFTED (R68). -/
theorem sensorEdge_of_taking (h : s.ctl.state = .settling ∨ s.ctl.state = .active ∨ s.ctl.state = .drifted)
    (n : Fin 4) : s.sensorEdge n = s.takeEdge n := by
  unfold sensorEdge
  rcases h with h | h | h <;> rw [h]

theorem sensorEdge_of_mute (h : s.ctl.state = .mute) (n : Fin 4) :
    s.sensorEdge n =
      { s with events := s.eventsWith { kind := .sightLost, value := some (n.val : Int), reason := some 1 } } := by
  unfold sensorEdge
  rw [h]
  rfl

/-! ## Readings (R67) -/

theorem sensorRead_of_same {n : Fin 4} {level : Bool} (h : level = (s.sensor n).level) : s.sensorRead n level = s :=
  if_pos h

section

variable {n : Fin 4} {level : Bool} (hl : level ≠ (s.sensor n).level)
  (he : (s.settings.sensors.get n).isEdge level = true)

include hl he

theorem sensorRead_of_edge :
    s.sensorRead n level = (s.setSensor n { s.sensor n with level := level }).sensorEdge n := by
  rw [sensorRead, if_neg hl, if_pos he]

theorem sensorRead_of_mute (hst : s.ctl.state = .mute) :
    s.sensorRead n level =
      { s.setSensor n { s.sensor n with level := level } with
        events := s.eventsWith { kind := .sightLost, value := some (n.val : Int), reason := some 1 } } :=
  (sensorRead_of_edge hl he).trans
    (sensorEdge_of_mute (s := s.setSensor n { s.sensor n with level := level }) hst n)

variable (hst : s.ctl.state = .settling ∨ s.ctl.state = .active ∨ s.ctl.state = .drifted)

include hst

theorem sensorRead_of_taking :
    s.sensorRead n level = (s.setSensor n { s.sensor n with level := level }).takeEdge n :=
  (sensorRead_of_edge hl he).trans
    (sensorEdge_of_taking (s := s.setSensor n { s.sensor n with level := level }) hst n)

theorem sensorRead_of_suppressed {l : Pos} (hlast : (s.sensor n).last = some l)
    (hgap : dist s.pos.count l < (s.settings.sensors.get n).gap.toNat) :
    s.sensorRead n level = s.setSensor n { s.sensor n with level := level } := by
  have hread : ((s.setSensor n { s.sensor n with level := level }).sensor n).last = some l := by
    rw [sensor_setSensor]
    exact hlast
  rw [sensorRead_of_taking hl he hst, takeEdge_of_suppressed hread hgap]

theorem sensorRead_of_sighting
    (hgap : ∀ l, (s.sensor n).last = some l → (s.settings.sensors.get n).gap.toNat ≤ dist s.pos.count l) :
    s.sensorRead n level =
      (s.setSensor n { level := level, last := some s.pos.count }).makeSighting s.pos.count
        (s.settings.sensors.get n).lane (s.settings.sensors.get n).cls := by
  rw [sensorRead_of_taking hl he hst, takeEdge_of_clear (by rw [sensor_setSensor]; exact hgap), setSensor_setSensor,
    sensor_setSensor]
  rfl

end

/-- A change of level that is no edge, or that comes before the station has joined, is a new reference level alone. -/
theorem sensorRead_of_no_edge {n : Fin 4} {level : Bool} (hl : level ≠ (s.sensor n).level)
    (h : (s.settings.sensors.get n).isEdge level = false ∨ ¬ s.Joined) :
    s.sensorRead n level = s.setSensor n { s.sensor n with level := level } := by
  cases he : (s.settings.sensors.get n).isEdge level with
  | false => rw [sensorRead, if_neg hl, he, if_neg Bool.false_ne_true]
  | true =>
    have hnot : ¬ (s.setSensor n { s.sensor n with level := level }).Joined := h.resolve_left (by simp [he])
    rw [sensorRead_of_edge hl he, sensorEdge_of_not_joined hnot]

end Station

/-- Settles O37: a reading by its level, an edge by the station state, a taken edge by the gap, and the sighting by the
room in the queue. -/
theorem sensorEdgesMakeSightings : Obligations.SensorEdgesMakeSightings := by
  rintro s n level _ _ rfl rfl
  refine ⟨fun hl => exec_of_effect_self (Station.sensorRead_of_same hl), fun hl => ⟨fun h => ?_, fun hen hdir => ?_⟩⟩
  · have hnone : (s.settings.sensors.get n).isEdge level = false ∨ ¬ s.Joined := by
      rw [Station.not_joined_iff]
      exact (or_assoc.mpr h).imp_left SensorSettings.isEdge_eq_false
    exact exec_of_effect (Station.sensorRead_of_no_edge hl hnone)
  · have he := (SensorSettings.isEdge_iff _ level).mpr ⟨hen, hdir⟩
    refine ⟨fun hst => exec_of_effect (Station.sensorRead_of_mute hl he hst), fun hst => ⟨fun l hlast hgap => ?_,
      fun hgap hroom => ?_, fun hgap hfull => ?_⟩⟩
    · exact exec_of_effect (Station.sensorRead_of_suppressed hl he hst hlast hgap)
    · exact exec_of_effect ((Station.sensorRead_of_sighting hl he hst hgap).trans (Station.makeSighting_of_room
        (s := s.toStation.setSensor n { level := level, last := some s.pos.count }) hroom _ _ _))
    · exact exec_of_effect ((Station.sensorRead_of_sighting hl he hst hgap).trans (Station.makeSighting_of_full
        (s := s.toStation.setSensor n { level := level, last := some s.pos.count }) hfull _ _ _))

/-! ## Arguments in range -/

theorem positionArg_of {now p : Pos} {choice given : Word}
    (h : choice = 1 ∧ p = now ∨ choice = 0 ∧ given = p.setWidth 32) : positionArg now choice given = some p := by
  unfold positionArg
  rcases h with ⟨rfl, rfl⟩ | ⟨rfl, rfl⟩
  · exact if_pos rfl
  · rw [if_neg (by decide), if_pos rfl, if_pos (by have := p.isLt; simp; omega)]
    simp

theorem verdictArg_setWidth {v : BitVec 2} (h : v = 1 ∨ v = 2) : verdictArg (v.setWidth 32) = some v := by
  rcases h with rfl | rfl <;> rfl

namespace Station

variable {s : Station}

theorem postSightArgs_of {lane : BitVec 2} {cls : BitVec 4} {p : Pos} (hlane : s.port.args.r0 = lane.setWidth 32)
    (hcls : s.port.args.r1 = cls.setWidth 32)
    (hpos : s.port.args.r2 = 1 ∧ p = s.pos.count ∨ s.port.args.r2 = 0 ∧ s.port.args.r3 = p.setWidth 32) :
    s.postSightArgs = s.postSightAt p lane cls := by
  rw [postSightArgs, hlane, hcls, laneArg_setWidth, classArg_setWidth, positionArg_of hpos]

theorem postVerdictArgs_of {tag : Tag} {v : BitVec 2} (horigin : s.port.args.r0 = tag.origin.setWidth 32)
    (hseq : s.port.args.r1 = tag.seq.setWidth 32) (hv : v = 1 ∨ v = 2) (hverdict : s.port.args.r2 = v.setWidth 32) :
    s.postVerdictArgs = s.enqueueHost (.verdict tag v) := by
  rw [postVerdictArgs, horigin, hseq, hverdict, tagArg_setWidth, verdictArg_setWidth hv]

theorem retireItemArgs_of {tag : Tag} (horigin : s.port.args.r0 = tag.origin.setWidth 32)
    (hseq : s.port.args.r1 = tag.seq.setWidth 32) : s.retireItemArgs = s.enqueueHost (.retire tag) := by
  rw [retireItemArgs, horigin, hseq, tagArg_setWidth]

/-! ## Posted frames (R75, R93, R94) -/

theorem txFull_of_room (h : s.link.txq.length < 16) : s.txFull = false := decide_eq_false (Nat.not_le.mpr h)

theorem txFull_of_full (h : 16 ≤ s.link.txq.length) : s.txFull = true := decide_eq_true h

theorem runCommand_of_inService {code : BitVec 8} {body : Station → Answer} {a : Answer}
    (hin : s.ctl.state.inService = true) (h : body (s.commandTaken code) = a) :
    s.runCommand code (Station.whenInService body) =
      { a.station with port.result := { command := code, code := a.code, detail := a.detail } } :=
  runCommand_of ((whenInService_of_inService (s := s.commandTaken code) hin).trans h)

section

variable {code : BitVec 8} {body : Station → Answer} {f : Payload}

theorem runCommand_enqueueHost_of_room (hin : s.ctl.state.inService = true)
    (hbody : body (s.commandTaken code) = (s.commandTaken code).enqueueHost f) (h : s.link.txq.length < 16) :
    s.runCommand code (Station.whenInService body) =
      { s with link.txq := s.link.txq ++ [{ payload := f, attempts := 0, origin := .host, inFlight := false }],
               port := s.port.answered code .done 0 } := by
  have hroom : (s.commandTaken code).link.txq.length < 16 := h
  rw [enqueueHost, enqueue_of_room hroom, txFull_of_room hroom] at hbody
  exact runCommand_of_inService hin hbody

theorem runCommand_enqueueHost_of_full (hin : s.ctl.state.inService = true)
    (hbody : body (s.commandTaken code) = (s.commandTaken code).enqueueHost f) (h : 16 ≤ s.link.txq.length) :
    s.runCommand code (Station.whenInService body) =
      { s with events := s.eventsWith (frameFields .txqFull s.settings.stationNumber f),
               port := s.port.answered code .refusedFull 0 } := by
  have hfull : 16 ≤ (s.commandTaken code).link.txq.length := h
  rw [enqueueHost, enqueue_of_full hfull, txFull_of_full hfull] at hbody
  exact runCommand_of_inService hin hbody

end

section

variable {lane : BitVec 2} {cls : BitVec 4} {p : Pos}

theorem postSightCommand_of_room (hin : s.ctl.state.inService = true)
    (hargs : (s.commandTaken 4).postSightArgs = (s.commandTaken 4).postSightAt p lane cls)
    (h : s.link.txq.length < 16) :
    s.postSightCommand =
      { s with
        sense.seq := s.sense.seq + 1
        link.txq := s.link.txq ++
          [{ payload := .sight s.sense.seq p lane cls, attempts := 0, origin := .sensor, inFlight := false }]
        port := s.port.answered 4 .done (s.sense.seq.setWidth 16) } := by
  have hroom : (s.commandTaken 4).link.txq.length < 16 := h
  rw [postSightAt, makeSighting_of_room hroom, txFull_of_room hroom] at hargs
  exact runCommand_of_inService hin hargs

theorem postSightCommand_of_full (hin : s.ctl.state.inService = true)
    (hargs : (s.commandTaken 4).postSightArgs = (s.commandTaken 4).postSightAt p lane cls)
    (h : 16 ≤ s.link.txq.length) :
    s.postSightCommand =
      { s with
        sense.seq := s.sense.seq + 1
        events := s.eventsWith { kind := .txqFull, item := some { origin := s.settings.stationNumber, seq := s.sense.seq },
                                 reason := some 0 }
        port := s.port.answered 4 .refusedFull (s.sense.seq.setWidth 16) } := by
  have hfull : 16 ≤ (s.commandTaken 4).link.txq.length := h
  rw [postSightAt, makeSighting_of_full hfull, txFull_of_full hfull] at hargs
  exact runCommand_of_inService hin hargs

end

end Station

/-- Settles O38: arguments in range give one frame, which joins the queue or finds it full. -/
theorem postedFramesAreEnqueued : Obligations.PostedFramesAreEnqueued := by
  intro s hst
  have hin : s.ctl.state.inService = true := (StationState.inService_iff _).mpr hst
  refine ⟨fun lane cls p hlane hcls hpos => ?_, fun tag horigin hseq => ⟨fun v hv hverdict => ?_, ?_⟩⟩
  · have hargs := Station.postSightArgs_of (s := s.toStation.commandTaken 4) hlane hcls hpos
    exact ⟨fun hroom => exec_of_effect (Station.postSightCommand_of_room hin hargs hroom),
      fun hfull => exec_of_effect (Station.postSightCommand_of_full hin hargs hfull)⟩
  · have hargs := Station.postVerdictArgs_of (s := s.toStation.commandTaken 5) horigin hseq hv hverdict
    rw [← frameFields_verdict .txqFull s.settings.stationNumber tag v]
    exact ⟨fun hroom => exec_of_effect (Station.runCommand_enqueueHost_of_room hin hargs hroom),
      fun hfull => exec_of_effect (Station.runCommand_enqueueHost_of_full hin hargs hfull)⟩
  · have hargs := Station.retireItemArgs_of (s := s.toStation.commandTaken 6) horigin hseq
    rw [← frameFields_retire .txqFull s.settings.stationNumber tag]
    exact ⟨fun hroom => exec_of_effect (Station.runCommand_enqueueHost_of_room hin hargs hroom),
      fun hfull => exec_of_effect (Station.runCommand_enqueueHost_of_full hin hargs hfull)⟩

end Sys2Proof.Machine

/-! PROOF. The track table: the place of an item, the takes of SIGHT, VERDICT and RETIRE, and the removal of an item. -/

namespace Sys2Proof.Machine

/-! ## Items of the table -/

namespace Station

variable {s : Station} {tag : Tag}

theorem findItem_isSome_iff : (s.findItem tag).isSome = true ↔ ∃ i ∈ s.track, i.tag = tag := by
  simp [Station.findItem, List.find?_isSome]

theorem findItem_isSome_eq_false (h : ∀ i ∈ s.track, i.tag ≠ tag) : (s.findItem tag).isSome = false := by
  rw [← Bool.not_eq_true, findItem_isSome_iff]
  exact fun ⟨i, hi, htag⟩ => h i hi htag

end Station

/-! ## The place of an item (R79) -/

theorem not_nearerThan (t p : Pos) (j : Item) :
    (!nearerThan t p j) = (!ahead j.sighting t && decide (dist t p ≤ dist t j.sighting)) := by
  rw [nearerThan, Bool.not_or, ← decide_not, decide_eq_decide.mpr not_lt]

/-- An item stands behind the items before the first that is nearer (R79). -/
theorem placeItem_eq (t : Pos) (i : Item) (js : List Item) :
    placeItem t i js = js.takeWhile (fun j => !nearerThan t i.sighting j) ++
      i :: js.dropWhile (fun j => !nearerThan t i.sighting j) := by
  induction js with
  | nil => rfl
  | cons j js ih =>
    unfold placeItem
    split
    · next hnear => simp [hnear]
    · next hnear => simp [hnear, ih]

/-! ## SIGHT (R81, R82) -/

namespace Station

variable {s : Station} {t : Pos} {i : Item}

theorem sightRefusal_of_ahead (h : ahead i.sighting t = true) : s.sightRefusal t i =
    some { kind := .badSight, item := some i.tag, station := some i.tag.origin,
           value := some (dist i.sighting t : Int) } :=
  if_pos h

theorem sightRefusal_of_stale (ha : ahead i.sighting t = false)
    (h : s.settings.trackHorizon.toNat < dist t i.sighting) : s.sightRefusal t i =
      some { kind := .staleSight, item := some i.tag, station := some i.tag.origin,
             value := some (dist t i.sighting : Int) } := by
  unfold Station.sightRefusal
  rw [if_neg (Bool.not_eq_true _ ▸ ha), if_pos h]

/-- A sighting that is neither ahead nor stale is judged by the table alone. -/
theorem sightRefusal_of_fresh (ha : ahead i.sighting t = false)
    (h : dist t i.sighting ≤ s.settings.trackHorizon.toNat) : s.sightRefusal t i =
      if (s.findItem i.tag).isSome then
        some { kind := .dupTag, item := some i.tag, station := some i.tag.origin }
      else if 48 ≤ s.track.length then
        some { kind := .trackFull, item := some i.tag, station := some i.tag.origin }
      else none := by
  unfold Station.sightRefusal
  rw [if_neg (Bool.not_eq_true _ ▸ ha), if_neg (Nat.not_lt.mpr h)]
  rfl

theorem takeSight_of_refused {f : EventFields} (h : s.sightRefusal t i = some f) : s.takeSight t i = s.addRecord f := by
  rw [Station.takeSight, h]

theorem takeSight_of_accepted (h : s.sightRefusal t i = none) :
    s.takeSight t i = ({ s with track := placeItem t i s.track }).insertItem i := by
  rw [Station.takeSight, h]
  rfl

end Station

/-- Settles O31: the place is before the first nearer item, and each check answers where those before it pass. -/
theorem sightChecksInOrder : Obligations.SightChecksInOrder := by
  refine ⟨fun t i js => ?_, fun s t i => ⟨fun ha => ?_, fun ha => ⟨fun hstale => ?_, fun hfresh => ?_⟩⟩⟩
  · simp only [placeItem_eq, not_nearerThan]
  · exact Station.takeSight_of_refused (Station.sightRefusal_of_ahead ha)
  · exact Station.takeSight_of_refused (Station.sightRefusal_of_stale ha hstale)
  · have hchecks := Station.sightRefusal_of_fresh ha hfresh
    refine ⟨fun hdup => ?_, fun hnew => ?_⟩
    · rw [if_pos (Station.findItem_isSome_iff.mpr hdup)] at hchecks
      exact Station.takeSight_of_refused hchecks
    · rw [Station.findItem_isSome_eq_false hnew, if_neg (by decide)] at hchecks
      refine ⟨fun hfull => ?_, fun hroom => ?_⟩
      · exact Station.takeSight_of_refused (hchecks.trans (if_pos hfull))
      · exact Station.takeSight_of_accepted (hchecks.trans (if_neg (Nat.not_le.mpr hroom)))

/-! ## VERDICT (R85, R86) -/

namespace Station

variable {s : Station} {o : Station5} {tag : Tag} {v : BitVec 2}

theorem takeVerdict_of_bad (h : v = 0 ∨ v = 3) : s.takeVerdict o tag v =
    s.addRecord { kind := .badVerdict, item := some tag, station := some o, reason := some (v.setWidth 4) } := by
  rcases h with rfl | rfl <;> rfl

theorem verdictField_of_good (h : v = 1 ∨ v = 2) : verdictField v = some (if v = 1 then .pass else .reject) := by
  rcases h with rfl | rfl <;> rfl

theorem takeVerdict_of_unknown (hv : v = 1 ∨ v = 2) (h : ∀ i ∈ s.track, i.tag ≠ tag) : s.takeVerdict o tag v =
    s.addRecord { kind := .verdictUnknown, item := some tag, station := some o, reason := some (v.setWidth 4) } := by
  rw [Station.takeVerdict, verdictField_of_good hv]
  exact if_neg (by rw [findItem_isSome_eq_false h]; decide)

theorem takeVerdict_of_known (hv : v = 1 ∨ v = 2) (h : ∃ i ∈ s.track, i.tag = tag) :
    s.takeVerdict o tag v = s.mergeVerdict tag (if v = 1 then .pass else .reject) o := by
  rw [Station.takeVerdict, verdictField_of_good hv]
  exact if_pos (findItem_isSome_iff.mpr h)

end Station

namespace Item

variable {i : Item}

/-- A REJECT stays (R86). -/
theorem merge_of_reject (h : i.verdict = .reject) (v : Verdict) (o : Station5) : i.merge v o = i := by
  simp [Item.merge, h]

theorem merge_reject (h : i.verdict ≠ .reject) (o : Station5) :
    i.merge .reject o = { i with verdict := .reject, source := some o } := by
  unfold Item.merge
  cases hv : i.verdict with
  | reject => exact absurd hv h
  | _ => rfl

theorem merge_pass_of_pass (h : i.verdict = .pass) (o : Station5) : i.merge .pass o = i := by
  simp [Item.merge, h]

theorem merge_pass_of_undecided (h : i.verdict = .undecided) (o : Station5) :
    i.merge .pass o = { i with verdict := .pass, source := some o } := by
  simp [Item.merge, h]

theorem merge_pass_verdict (h : i.verdict ≠ .reject) (o : Station5) : (i.merge .pass o).verdict = .pass := by
  cases hv : i.verdict with
  | undecided => rw [merge_pass_of_undecided hv]
  | pass => rw [merge_pass_of_pass hv, hv]
  | reject => exact absurd hv h

/-- The verdicts taken for an item are merged one after another; each is a REJECT or a PASS, from a sender. -/
def mergeAll (i : Item) (vs : List (Bool × Station5)) : Item :=
  vs.foldl (fun j p => j.merge (if p.1 then .reject else .pass) p.2) i

theorem mergeAll_of_reject (h : i.verdict = .reject) (vs : List (Bool × Station5)) : i.mergeAll vs = i := by
  induction vs with
  | nil => rfl
  | cons p vs ih =>
    show (i.merge _ _).mergeAll vs = i
    rw [merge_of_reject h, ih]

/-- Any REJECT among the verdicts decides, wherever it stands; otherwise an item with a PASS has PASS. -/
theorem mergeAll_verdict (h : i.verdict ≠ .reject) (p : Bool × Station5) (vs : List (Bool × Station5)) :
    (i.mergeAll (p :: vs)).verdict = if (p :: vs).any Prod.fst then .reject else .pass := by
  induction vs generalizing i p with
  | nil =>
    obtain ⟨_ | _, o⟩ := p
    · exact merge_pass_verdict h o
    · exact congrArg Item.verdict (merge_reject h o)
  | cons q vs ih =>
    obtain ⟨_ | _, o⟩ := p
    · have hpass : (i.merge .pass o).verdict ≠ .reject := by rw [merge_pass_verdict h]; decide
      exact ih hpass q
    · show ((i.merge .reject o).mergeAll _).verdict = .reject
      rw [merge_reject h, mergeAll_of_reject rfl]

/-- The source of a REJECT is the first sender of one. -/
theorem mergeAll_source (h : i.verdict ≠ .reject) {vs : List (Bool × Station5)} {p : Bool × Station5}
    (hp : vs.find? Prod.fst = some p) : (i.mergeAll vs).source = some p.2 := by
  induction vs generalizing i with
  | nil => cases hp
  | cons q vs ih =>
    obtain ⟨_ | _, o⟩ := q
    · have hpass : (i.merge .pass o).verdict ≠ .reject := by rw [merge_pass_verdict h]; decide
      exact ih hpass hp
    · cases hp
      show ((i.merge .reject o).mergeAll _).source = some o
      rw [merge_reject h, mergeAll_of_reject rfl]

end Item

/-- Settles O32: the three cases of the take, the merge case by case, and the merge of a list of verdicts, in which the
first REJECT decides and stays. -/
theorem verdictsAreMerged : Obligations.VerdictsAreMerged := by
  refine ⟨fun s o tag => ⟨fun v => Station.takeVerdict_of_bad, fun v => Station.takeVerdict_of_unknown,
    fun v => Station.takeVerdict_of_known⟩, fun i o => ⟨fun h => ?_, fun h => ?_, fun h => ?_⟩, fun i vs h => ?_⟩
  · exact ⟨Item.merge_pass_of_undecided h o, Item.merge_reject (by rw [h]; decide) o⟩
  · exact ⟨Item.merge_pass_of_pass h o, Item.merge_reject (by rw [h]; decide) o⟩
  · exact ⟨Item.merge_of_reject h _ o, Item.merge_of_reject h _ o⟩
  · have hne : i.verdict ≠ .reject := by rw [h]; decide
    refine ⟨?_, fun p => Item.mergeAll_source hne⟩
    cases vs with
    | nil => exact h
    | cons p vs => exact Item.mergeAll_verdict hne p vs

/-! ## Removal (R88, R91, R92) -/

theorem tagArg_of_le {o q : Word} (ho : o.toNat ≤ 31) (hq : q.toNat ≤ 255) :
    tagArg o q = some { origin := BitVec.ofNat 5 o.toNat, seq := BitVec.ofNat 8 q.toNat } := by
  unfold tagArg stationArg seqArg
  rw [if_pos ho, if_pos hq, ← BitVec.ofNat_toNat, ← BitVec.ofNat_toNat]

namespace Station

variable {s : Station} {tag : Tag}

theorem takeRetire_of_present (h : ∃ i ∈ s.track, i.tag = tag) : s.takeRetire tag = s.removeItem tag :=
  if_pos (findItem_isSome_iff.mpr h)

theorem takeRetire_of_absent (h : ¬∃ i ∈ s.track, i.tag = tag) : s.takeRetire tag = s :=
  if_neg (mt findItem_isSome_iff.mp h)

/-- A removal is the release of each entry of the item, in agenda order, and a load of the match register (R116). -/
theorem removeItem_eq (s : Station) (tag : Tag) :
    s.removeItem tag = ((s.agenda.filter (fun e => e.item == tag)).foldl
      (fun v e => ({ v with agenda := v.agenda.erase e } : Station).releaseClaim e)
      { s with track := s.track.eraseP (fun i => i.tag == tag) }).loadMatch := rfl

theorem dropItem_of_present (harg : tagArg s.port.args.r0 s.port.args.r1 = some tag)
    (h : ∃ i ∈ s.track, i.tag = tag) : s.dropItem = (s.removeItem tag).answer .done := by
  rw [Station.dropItem, harg]
  exact if_pos (findItem_isSome_iff.mpr h)

theorem dropItem_of_absent (harg : tagArg s.port.args.r0 s.port.args.r1 = some tag)
    (h : ∀ i ∈ s.track, i.tag ≠ tag) : s.dropItem = s.answer .notFound := by
  rw [Station.dropItem, harg]
  exact if_neg (by rw [findItem_isSome_eq_false h]; decide)

theorem dropItem_of_out (h : 31 < s.port.args.r0.toNat ∨ 255 < s.port.args.r1.toNat) :
    s.dropItem = s.answer .refusedArg := by
  rw [Station.dropItem, tagArg_out h]

theorem dropItemCommand_of_present (harg : tagArg s.port.args.r0 s.port.args.r1 = some tag)
    (h : ∃ i ∈ s.track, i.tag = tag) :
    s.dropItemCommand = { s.removeItem tag with port := s.port.answered 7 .done 0 } := by
  have hbody := dropItem_of_present (s := s.commandTaken 7) harg h
  rw [commandTaken, removeItem_port] at hbody
  exact runCommand_of hbody

end Station

/-- Settles O33: a removal is its fold of releases by definition, reaches what its frame says, and is what RETIRE and
DROP_ITEM do where the item is in the table. -/
theorem removalCancelsTheEntries : Obligations.RemovalCancelsTheEntries := by
  refine ⟨fun s tag => ?_, fun s u tag hu => ?_, fun s tag => ?_, fun s => ⟨?_, fun hout => exec_of_effect ?_⟩⟩
  · split
    · next h => exact Station.takeRetire_of_present h
    · next h => exact Station.takeRetire_of_absent h
  · rw [Station.removeItem_eq, ← hu]
    rfl
  · obtain ⟨q, ev, heq⟩ := s.removeItem_frame tag
    rw [heq]
    exact ⟨rfl, rfl, rfl, rfl, rfl, rfl, rfl, rfl, rfl, rfl, rfl, rfl⟩
  · rintro o q rfl rfl ho hq tag rfl
    have harg := tagArg_of_le ho hq
    refine ⟨fun h => exec_of_effect ?_, fun h => exec_of_effect ?_⟩
    · exact Station.dropItemCommand_of_present harg h
    · exact Station.runCommand_of_unchanged (Station.dropItem_of_absent (s := s.toStation.commandTaken 7) harg h)
  · exact Station.runCommand_of_unchanged (Station.dropItem_of_out (s := s.toStation.commandTaken 7) hout)

end Sys2Proof.Machine

/-! PROOF. The track table under every step: what one step can do to it, said once, and what that keeps. -/

namespace Sys2Proof.Machine

/-! ## Changes of the table -/

theorem placeItem_perm (t : Pos) (i : Item) (js : List Item) : (placeItem t i js).Perm (i :: js) := by
  rw [placeItem_eq]
  exact List.perm_middle.trans (by rw [List.takeWhile_append_dropWhile])

/-- A verdict is merged into the item of a tag (R85). -/
def Item.mergeAt (tag : Tag) (v : Verdict) (o : Station5) (i : Item) : Item :=
  if i.tag = tag then i.merge v o else i

theorem Item.mergeAt_tag (tag : Tag) (v : Verdict) (o : Station5) (i : Item) : (i.mergeAt tag v o).tag = i.tag := by
  unfold Item.mergeAt
  split
  · exact i.merge_tag v o
  · rfl

theorem Item.mergeAt_of_reject {i : Item} (h : i.verdict = .reject) (tag : Tag) (v : Verdict) (o : Station5) :
    i.mergeAt tag v o = i := by
  unfold Item.mergeAt
  rw [Item.merge_of_reject h, ite_self]

/-- A verdict source is present exactly when the verdict is PASS or REJECT (R78). -/
def Item.SourceMatches (i : Item) : Prop := i.source.isSome = true ↔ i.verdict ≠ .undecided

theorem Item.SourceMatches.mergeAt {i : Item} (h : i.SourceMatches) (tag : Tag) (v : Verdict) (o : Station5) :
    (i.mergeAt tag v o).SourceMatches := by
  unfold Item.mergeAt Item.merge
  split
  · split
    case h_1 | h_2 | h_3 => simp [Item.SourceMatches]
    all_goals exact h
  · exact h

/-- What one step can do to the track table: items leave, one verdict is merged, or one item with a new tag is entered
without a verdict. -/
inductive TrackChange (items : List Item) : List Item → Prop
  | removed {items' : List Item} (h : items'.Sublist items) : TrackChange items items'
  | merged (tag : Tag) (v : Verdict) (o : Station5) : TrackChange items (items.map (Item.mergeAt tag v o))
  | entered (t : Pos) (i : Item) (hnew : ∀ j ∈ items, j.tag ≠ i.tag) (hv : i.verdict = .undecided)
      (hs : i.source = none) : TrackChange items (placeItem t i items)

/-- No two items of a table with the same tag (R79). -/
def TagsApart (items : List Item) : Prop := items.Pairwise (fun i j => i.tag ≠ j.tag)

theorem TagsApart.eq_of_tag {items : List Item} (h : TagsApart items) {i j : Item} (hi : i ∈ items) (hj : j ∈ items)
    (htag : j.tag = i.tag) : j = i :=
  List.inj_on_of_nodup_map (List.pairwise_map.mpr h) hj hi htag

namespace TrackChange

variable {items items' : List Item}

theorem tagsApart (hc : TrackChange items items') (h : TagsApart items) : TagsApart items' := by
  cases hc with
  | removed hsub => exact h.sublist hsub
  | merged tag v o =>
    refine List.pairwise_map.mpr (h.imp fun {i j} hij => ?_)
    rwa [Item.mergeAt_tag, Item.mergeAt_tag]
  | entered t i hnew =>
    refine ((placeItem_perm t i items).pairwise_iff fun hij => hij.symm).mpr (List.pairwise_cons.mpr ⟨?_, h⟩)
    exact fun j hj => (hnew j hj).symm

theorem sourceMatches (hc : TrackChange items items') (h : ∀ i ∈ items, i.SourceMatches) :
    ∀ i ∈ items', i.SourceMatches := by
  intro j hj
  cases hc with
  | removed hsub => exact h j (hsub.mem hj)
  | merged tag v o =>
    obtain ⟨i, hi, rfl⟩ := List.mem_map.mp hj
    exact (h i hi).mergeAt tag v o
  | entered t i _ hv hs =>
    rcases mem_placeItem.mp hj with rfl | hj
    · simp [Item.SourceMatches, hv, hs]
    · exact h j hj

/-- An item with verdict REJECT stays as it is while its tag is in the table (R86). -/
theorem reject_stays (hc : TrackChange items items') (h : TagsApart items) {i j : Item} (hi : i ∈ items)
    (hr : i.verdict = .reject) (hj : j ∈ items') (htag : j.tag = i.tag) : j = i := by
  cases hc with
  | removed hsub => exact h.eq_of_tag hi (hsub.mem hj) htag
  | merged tag v o =>
    obtain ⟨k, hk, rfl⟩ := List.mem_map.mp hj
    rw [Item.mergeAt_tag] at htag
    rw [h.eq_of_tag hi hk htag, Item.mergeAt_of_reject hr]
  | entered t k hnew =>
    rcases mem_placeItem.mp hj with rfl | hj
    · exact absurd htag.symm (hnew i hi)
    · exact h.eq_of_tag hi hj htag

end TrackChange

namespace Station

variable {s t u : Station}

/-! ## Operations that enter nothing -/

/-- Besides items that leave, the track table stays as it is. -/
def TrackShrinks (s t : Station) : Prop := t.track.Sublist s.track

theorem TrackShrinks.of_eq (h : t.track = s.track) : TrackShrinks s t := by
  unfold TrackShrinks
  rw [h]

theorem TrackShrinks.trans (h : TrackShrinks s t) (h' : TrackShrinks t u) : TrackShrinks s u := List.Sublist.trans h' h

/-- An update on a condition leaves the table where the update does. -/
theorem track_ite {c : Prop} {_ : Decidable c} (h : t.track = s.track) : (if c then t else s).track = s.track := by
  split
  · exact h
  · rfl

theorem removeItem_trackShrinks (s : Station) (tag : Tag) : TrackShrinks s (s.removeItem tag) := by
  obtain ⟨q, ev, heq⟩ := s.removeItem_frame tag
  rw [heq]
  exact List.eraseP_sublist

theorem removeOldest_trackShrinks (n : Nat) (s : Station) : TrackShrinks s (s.removeOldest n) := by
  induction n generalizing s with
  | zero => exact .of_eq rfl
  | succ n ih =>
    unfold Station.removeOldest
    split
    · exact .of_eq rfl
    · split
      · exact (s.removeItem_trackShrinks _).trans (ih _)
      · exact .of_eq rfl

theorem lateSweep_track (s : Station) : s.lateSweep.track = s.track := by
  obtain ⟨q, ch, ev, heq⟩ := s.lateSweep_frame
  rw [heq]

theorem matchStep_track (s : Station) : s.matchStep.track = s.track := by
  unfold Station.matchStep
  split
  · obtain ⟨q, ch, ev, heq⟩ := s.takeMatch_frame
    rw [heq]
  · rfl

theorem settleStep_track (s : Station) : s.settleStep.track = s.track := by
  obtain ⟨st, re, ss, ev, heq, -⟩ := s.settleStep_frame
  rw [heq]

theorem handle_trackShrinks (r : StepReceiver) (s : Station) : TrackShrinks s (r.handle s) := by
  cases r with
  | track => exact removeOldest_trackShrinks _ s
  | agenda => exact .of_eq s.matchStep_track
  | control => exact .of_eq s.settleStep_track

theorem forwardStep_trackShrinks (s : Station) : TrackShrinks s s.forwardStep :=
  inTieOrder_induct (P := TrackShrinks s) (fun _ _ h => h) (fun r _ _ h => h.trans (handle_trackShrinks r _))
    (.of_eq rfl)

theorem count_trackShrinks (s : Station) (d : Direction) : TrackShrinks s (s.count d) := by
  unfold Station.count
  split
  · split
    · exact forwardStep_trackShrinks { s with pos.dir := .forward, pos.sub := 0 }
    · exact .of_eq rfl
  · split
    · exact .of_eq (lateSweep_track _)
    · exact .of_eq rfl

theorem encoderChange_trackShrinks (s : Station) (new : EncLevels) : TrackShrinks s (s.encoderChange new) := by
  unfold Station.encoderChange
  split
  · exact .of_eq rfl
  · exact count_trackShrinks (s.acceptLevels new) _

theorem countFailure_track (s : Station) : s.countFailure.track = s.track := by
  unfold Station.countFailure
  split
  · rfl
  · split
    · unfold Station.enterMute
      obtain ⟨ag, ev, heq⟩ := Station.flushQueue_frame (Station.changeState .mute .sendFailures _)
      rw [heq]
      rfl
    · rfl

theorem failHead_track (s : Station) (e : TxEntry) : (s.failHead e).track = s.track := by
  unfold Station.failHead
  rw [countFailure_track]
  split
  · rfl
  · unfold Station.dropHead
    obtain ⟨ag, ev, heq⟩ := Station.handBack_frame false (Station.addRecord _ _) e
    rw [heq]
    rfl

theorem attemptFails_track (s : Station) : s.attemptFails.track = s.track := by
  unfold Station.attemptFails
  split
  · rfl
  · split
    · exact failHead_track _ _
    · rfl

theorem findBitClash_track (s : Station) : s.findBitClash.track = s.track := by
  unfold Station.findBitClash
  split
  · rfl
  · split
    · exact failHead_track _ _
    · rfl

theorem judgeLevels_track (s : Station) (levels : List Bool) : (s.judgeLevels levels).track = s.track := by
  unfold Station.judgeLevels
  split
  · split <;> rfl
  · rfl

theorem markExpires_track (s : Station) : s.markExpires.track = s.track := by
  unfold Station.markExpires
  split
  · rfl
  · split
    · rfl
    · split <;> rfl

/-! ## Transactions -/

theorem trackShrinks_of_portAction (h : PortAction s t) : TrackShrinks s t := by
  cases h with
  | nothing => exact .of_eq rfl
  | accept => exact .of_eq rfl
  | stop => exact List.nil_sublist _
  | resume =>
    obtain ⟨ct, m, ev, heq⟩ := Station.returnToResume_frame { s with link.goodRun := 0 } .resume
    exact .of_eq (by rw [heq])
  | sighting pos lane cls =>
    obtain ⟨q, ev, heq⟩ := s.makeSighting_frame pos lane cls
    exact .of_eq (by rw [heq])
  | host p =>
    obtain ⟨q, ev, heq⟩ := s.enqueue_frame p .host
    exact .of_eq (by rw [heq])
  | removal tag => exact s.removeItem_trackShrinks tag
  | request c sl =>
    obtain ⟨ch, ev, heq⟩ := s.fireRequest_frame c sl .force none
    exact .of_eq (by rw [heq])
  | commit => exact .of_eq rfl
  | pop => exact .of_eq rfl
  | item i x t ht =>
    obtain ⟨rf, sb, ch, ev, k, heq⟩ := (takeItem_frame ht).eq
    exact .of_eq (by rw [heq])

theorem trackShrinks_of_portEffect (h : PortEffect s t) : TrackShrinks s t := by
  cases h with
  | acts p p' hu ht =>
    have hkept := trackShrinks_of_portAction hu
    rw [ht]
    exact hkept
  | reset => exact List.nil_sublist _

/-! ## Takes -/

/-- A SIGHT that passes the checks has a tag that is not in the table (R81). -/
theorem tag_ne_of_accepted {p : Pos} {i : Item} (h : s.sightRefusal p i = none) : ∀ j ∈ s.track, j.tag ≠ i.tag := by
  intro j hj htag
  have hdup : (s.findItem i.tag).isSome = true := findItem_isSome_iff.mpr ⟨j, hj, htag⟩
  unfold Station.sightRefusal at h
  rw [if_pos hdup] at h
  split at h
  · cases h
  · split at h <;> cases h

theorem takeSight_trackChange (s : Station) (t : Pos) {i : Item} (hv : i.verdict = .undecided) (hs : i.source = none) :
    TrackChange s.track (s.takeSight t i).track := by
  cases h : s.sightRefusal t i with
  | some f =>
    rw [takeSight_of_refused h]
    exact .removed (.refl _)
  | none =>
    obtain ⟨q, ch, ev, k, ag, heq⟩ := Station.insertItem_frame { s with track := placeItem t i s.track } i
    rw [takeSight_of_accepted h, heq]
    exact .entered t i (tag_ne_of_accepted h) hv hs

theorem mergeVerdict_track (s : Station) (tag : Tag) (v : Verdict) (o : Station5) :
    (s.mergeVerdict tag v o).track = s.track.map (Item.mergeAt tag v o) := rfl

theorem takeVerdict_trackChange (s : Station) (o : Station5) (tag : Tag) (v : BitVec 2) :
    TrackChange s.track (s.takeVerdict o tag v).track := by
  unfold Station.takeVerdict
  split
  · exact .removed (.refl _)
  · split
    · rw [mergeVerdict_track]
      exact .merged tag _ o
    · exact .removed (.refl _)

theorem takeRetire_trackShrinks (s : Station) (tag : Tag) : TrackShrinks s (s.takeRetire tag) := by
  unfold Station.takeRetire
  split
  · exact s.removeItem_trackShrinks tag
  · exact .of_eq rfl

theorem takeClaim_track (s : Station) (own : Bool) (t : Pos) (c : Claim) : (s.takeClaim own t c).track = s.track := by
  unfold Station.takeClaim
  split
  · split
    · unfold Station.ownEntered
      split
      · rfl
      · unfold Station.enqueue
        split <;> rfl
    · rfl
  · split
    · obtain ⟨ag, ev, heq⟩ := s.loseClaim_frame c.tag.seq _
      rw [heq]
    · rfl

theorem applyFrame_trackChange (s : Station) (own : Bool) (f : Frame) :
    TrackChange s.track (s.applyFrame own f).track := by
  show TrackChange (s.purge f.stamp).track ((s.purge f.stamp).applyKind own f).track
  unfold Station.applyKind
  split
  · exact takeSight_trackChange _ _ rfl rfl
  · exact takeVerdict_trackChange _ _ _ _
  · exact .removed (takeRetire_trackShrinks _ _)
  · exact .removed (TrackShrinks.of_eq (takeClaim_track _ _ _ _))
  · exact .removed (.refl _)
  · exact .removed (.refl _)

/-- A take changes the table by the frame's kind alone: the position step and the purge leave it (R34). -/
theorem takeFrame_trackChange (s : Station) (f : Frame) : TrackChange s.track (s.takeFrame f).track := by
  unfold Station.takeFrame
  split
  · exact .removed (.refl _)
  · split
    · exact applyFrame_trackChange s.frameOver.takeOwn true _
    · split
      · obtain ⟨p, l, ct, se, ag, ch, ev, heq⟩ := s.frameOver.beforePurge_frame f (f.stamp - s.frameOver.pos.capture)
        unfold Station.takeOther
        rw [heq]
        exact applyFrame_trackChange { s.frameOver with pos := p, link := l, ctl := ct, sense := se, agenda := ag,
                                                        channels := ch, events := ev } false f
      · exact .removed (.refl _)

/-! ## Every step -/

/-- A take can enter an item or merge a verdict; any other command can only remove items. -/
theorem effectOf_trackChange (c : Instr) (s : Station) : TrackChange s.track (effectOf c s).track := by
  cases c with
  | frameTake f => exact s.takeFrame_trackChange f
  | encoderCount new => exact .removed (s.encoderChange_trackShrinks new)
  | startBit => exact .removed (TrackShrinks.of_eq (track_ite (s := s) rfl))
  | idleGap => exact .removed (TrackShrinks.of_eq (track_ite (s := s) rfl))
  | frameStart => exact .removed (TrackShrinks.of_eq (track_ite (s := s) rfl))
  | lostArbitration => exact .removed (TrackShrinks.of_eq (track_ite (s := s) rfl))
  | frameRejected => exact .removed (TrackShrinks.of_eq (track_ite (s := s) rfl))
  | joinTimeout => exact .removed (TrackShrinks.of_eq (track_ite (s := s) rfl))
  | bitClash => exact .removed (TrackShrinks.of_eq s.findBitClash_track)
  | failedAttempt => exact .removed (TrackShrinks.of_eq s.attemptFails_track)
  | frameFault levels => exact .removed (TrackShrinks.of_eq (s.judgeLevels_track levels))
  | markTimerExpiry => exact .removed (TrackShrinks.of_eq s.markExpires_track)
  | sensorInputChange n level =>
    obtain ⟨se, q, ev, heq⟩ := s.sensorRead_frame n level
    exact .removed (TrackShrinks.of_eq (by rw [effectOf, heq]))
  | auxInputChange n level =>
    obtain ⟨a, ch, ev, k, heq⟩ := s.auxRead_frame n level
    exact .removed (TrackShrinks.of_eq (by rw [effectOf, heq]))
  | delayExpiry d =>
    obtain ⟨ch, heq⟩ := s.delayExpires_frame d
    exact .removed (TrackShrinks.of_eq (by rw [effectOf, heq]))
  | highWidthExpiry d =>
    obtain ⟨ch, ev, heq⟩ := s.highExpires_frame d
    exact .removed (TrackShrinks.of_eq (by rw [effectOf, heq]))
  | lowWidthExpiry d =>
    obtain ⟨ch, heq⟩ := s.lowExpires_frame d
    exact .removed (TrackShrinks.of_eq (by rw [effectOf, heq]))
  | holdCapExpiry d =>
    obtain ⟨ch, ev, heq⟩ := s.holdCapExpires_frame d
    exact .removed (TrackShrinks.of_eq (by rw [effectOf, heq]))
  | _ => exact .removed (trackShrinks_of_portEffect (effectOf_port rfl s))

theorem step_trackChange {s t : State} (h : step s = .next t) : TrackChange s.track t.track := by
  unfold step at h
  split at h
  · obtain ⟨k, hk⟩ := s.toStation.tick.noteChoice_frame s.tick.dueCommands
    cases h
    show TrackChange s.track (s.tick.noteChoice s.tick.dueCommands).track
    rw [hk]
    exact .removed (.refl _)
  · rw [exec_eq_effectOf] at h
    cases h
    exact effectOf_trackChange _ _

end Station

/-- Settles O58: a step removes items, merges one verdict or enters one item with a new tag; each keeps the tags apart
and the sources in step with the verdicts, and none touches an item with verdict REJECT that stays. -/
theorem everyStepKeepsTheTrackTable : Obligations.EveryStepKeepsTheTrackTable := by
  refine ⟨fun s t ⟨hapart, hsource⟩ hstep => ?_, fun s t i j ⟨hapart, _⟩ hstep hi hr hj htag => ?_⟩
  · have hchange := Station.step_trackChange hstep
    exact ⟨hchange.tagsApart hapart, hchange.sourceMatches hsource⟩
  · obtain rfl := (Station.step_trackChange hstep).reject_stays hapart hi hr hj htag
    exact ⟨hr, rfl⟩

end Sys2Proof.Machine

/-! PROOF. Action templates and the agenda: judging at a match and in late handling, the place of a new entry, claim
making, and the claim release of an entry that leaves (Chapter 6). -/

namespace Sys2Proof.Machine

/-! ## Verdicts and conditions (R87, R100) -/

theorem Condition.satisfied_any (v : Verdict) : Condition.any.satisfied v = true := rfl

theorem Condition.satisfied_pass_iff (v : Verdict) : Condition.pass.satisfied v = true ↔ v = .pass := beq_iff_eq

theorem Condition.satisfied_reject_iff (v : Verdict) : Condition.reject.satisfied v = true ↔ v = .reject := beq_iff_eq

theorem Condition.satisfied_notReject_iff (v : Verdict) :
    Condition.notReject.satisfied v = true ↔ v = .undecided ∨ v = .pass := by
  simp [Condition.satisfied]

theorem Condition.satisfied_undecided_iff (v : Verdict) : Condition.undecided.satisfied v = true ↔ v = .undecided :=
  beq_iff_eq

namespace Station

variable {s : Station}

/-- An item of the table is the one found by its tag. -/
theorem findItem_of_mem {i : Item} (hi : i ∈ s.track) (hapart : TagsApart s.track) : s.findItem i.tag = some i := by
  obtain ⟨j, hj⟩ := Option.isSome_iff_exists.mp (findItem_isSome_iff.mpr ⟨i, hi, rfl⟩)
  have hmem : j ∈ s.track := List.mem_of_find?_eq_some hj
  have htag : j.tag = i.tag := by simpa using List.find?_some hj
  rw [hj, hapart.eq_of_tag hmem hi htag.symm]

theorem verdictOf_of_mem {i : Item} (hi : i ∈ s.track) (hapart : TagsApart s.track) :
    s.verdictOf i.tag = i.verdict := by
  rw [verdictOf, findItem_of_mem hi hapart]

end Station

/-! ## Windows and claim states -/

theorem ClaimState.isHeld_iff (c : ClaimState) : c.isHeld = true ↔ ∃ q, c = .held q := by
  cases c <;> simp [ClaimState.isHeld]

/-- A windowed entry that is not HELD lost its window, or still wants it (R166). -/
theorem ClaimState.noWindowCode_eq {c : ClaimState} (hheld : ∀ q, c ≠ .held q) (hnone : c ≠ .none) :
    c.noWindowCode = if c = .lost then 2 else 1 := by
  cases c with
  | none => exact absurd rfl hnone
  | held q => exact absurd rfl (hheld q)
  | wanted q => rfl
  | lost => rfl

/-! ## Judging at a match (R111) -/

namespace Station

variable {s : Station} {e : Entry}

theorem judgeMatched_of_drifted (h : s.ctl.state = .drifted) : s.judgeMatched e =
    s.addRecord { kind := .skippedDrift, item := some e.item, template := some e.template } :=
  if_pos h

/-- Outside DRIFTED the verdict is asked first, and then the window. -/
theorem judgeMatched_of_not_drifted (h : s.ctl.state ≠ .drifted) : s.judgeMatched e =
    if (s.template e.template).condition.satisfied (s.verdictOf e.item) = false then s
    else if (s.template e.template).windowed = true ∧ e.claim.isHeld = false then
      s.addRecord { kind := .noWindow, item := some e.item, template := some e.template,
                    reason := some e.claim.noWindowCode }
    else (s.reportFired e.template e.item).agendaFire e.template e.item := by
  simp [judgeMatched, h]

theorem reportFired_template (t u : Fin 16) (i : Tag) : (s.reportFired t i).template u = s.template u := by
  obtain ⟨ev, heq⟩ := s.reportFired_frame t i
  rw [heq]
  rfl

theorem judgeMatched_of_noWindow (hst : s.ctl.state ≠ .drifted)
    (hsat : (s.template e.template).condition.satisfied (s.verdictOf e.item) = true)
    (hw : (s.template e.template).windowed = true) (hheld : ∀ q, e.claim ≠ .held q) : s.judgeMatched e =
      s.addRecord { kind := .noWindow, item := some e.item, template := some e.template,
                    reason := some e.claim.noWindowCode } := by
  have hnot : e.claim.isHeld = false := by
    rw [← Bool.not_eq_true, ClaimState.isHeld_iff]
    exact fun ⟨q, hq⟩ => hheld q hq
  rw [judgeMatched_of_not_drifted hst, if_neg (by simp [hsat]), if_pos ⟨hw, hnot⟩]

theorem judgeMatched_of_window (hst : s.ctl.state ≠ .drifted)
    (hsat : (s.template e.template).condition.satisfied (s.verdictOf e.item) = true)
    (hw : (s.template e.template).windowed = false ∨ ∃ q, e.claim = .held q) : s.judgeMatched e =
      (s.reportFired e.template e.item).fireRequest (s.template e.template).channel (s.template e.template).slot
        .agenda (some e.item) := by
  have hnot : ¬((s.template e.template).windowed = true ∧ e.claim.isHeld = false) := by
    rintro ⟨hwin, hnot⟩
    rw [← ClaimState.isHeld_iff, hwin, hnot] at hw
    simp at hw
  rw [judgeMatched_of_not_drifted hst, if_neg (by simp [hsat]), if_neg hnot, agendaFire, reportFired_template]

end Station

/-- Settles O11: DRIFTED before the verdict, the verdict before the window, and the window before the fire request. -/
theorem matchedEntriesAreJudgedInOrder : Obligations.MatchedEntriesAreJudgedInOrder := by
  refine ⟨fun v => ⟨Condition.satisfied_any v, Condition.satisfied_pass_iff v, Condition.satisfied_reject_iff v,
    Condition.satisfied_notReject_iff v, Condition.satisfied_undecided_iff v⟩,
    fun s i hi hapart => Station.verdictOf_of_mem hi hapart, fun s e =>
    ⟨Station.judgeMatched_of_drifted, fun hst hsat => ?_, fun hst hsat hw hheld hnone => ?_,
      Station.judgeMatched_of_window⟩⟩
  · rw [Station.judgeMatched_of_not_drifted hst, if_pos hsat]
  · rw [Station.judgeMatched_of_noWindow hst hsat hw hheld, ClaimState.noWindowCode_eq hheld hnone]

/-! ## Late handling (R112) -/

theorem Template.dropsLate_iff (t : Template) (l : Nat) :
    t.dropsLate l = true ↔ t.windowed = true ∨ t.policy = .drop ∨ t.tolerance.toNat < l := by
  simp [Template.dropsLate, or_assoc]

theorem Template.dropsLate_eq_false {t : Template} {l : Nat} (hw : t.windowed = false) (hp : t.policy = .fireLate)
    (hl : l ≤ t.tolerance.toNat) : t.dropsLate l = false := by
  rw [← Bool.not_eq_true, t.dropsLate_iff, hw, hp]
  simpa using hl

namespace Station

variable {s : Station} {t : Fin 16} {l : Nat}

theorem handleLate_of_drop (h : (s.template t).dropsLate l = true) (i : Tag) : s.handleLate t i l =
    s.addRecord { kind := .lateDrop, item := some i, template := some t, value := some (l : Int) } :=
  if_pos h

theorem handleLate_of_drifted (hd : (s.template t).dropsLate l = false) (hst : s.ctl.state = .drifted) (i : Tag) :
    s.handleLate t i l = s.addRecord { kind := .skippedDrift, item := some i, template := some t } := by
  rw [handleLate, hd, if_neg Bool.false_ne_true, if_pos hst]

/-- A late action that is not dropped asks the verdict outside DRIFTED, and then fires. -/
theorem handleLate_of_not_drifted (hd : (s.template t).dropsLate l = false) (hst : s.ctl.state ≠ .drifted) (i : Tag) :
    s.handleLate t i l =
      if (s.template t).condition.satisfied (s.verdictOf i) = false then s
      else (s.addRecord { kind := .lateFire, item := some i, template := some t,
                          channel := some (s.template t).channel, value := some (l : Int) }).agendaFire t i := by
  simp [handleLate, hd, hst]

end Station

/-- Settles O12: the drop before DRIFTED, DRIFTED before the verdict, and the verdict before the late fire. -/
theorem lateEntriesAreHandledInOrder : Obligations.LateEntriesAreHandledInOrder := by
  refine fun s t item l => ⟨fun hdrop => ?_, fun hw hp hl => ?_⟩
  · exact Station.handleLate_of_drop ((Template.dropsLate_iff _ l).mpr hdrop) item
  · have hkept := Template.dropsLate_eq_false hw hp hl
    refine ⟨fun hst => Station.handleLate_of_drifted hkept hst item, fun hst hsat => ?_, fun hst hsat => ?_⟩
    · rw [Station.handleLate_of_not_drifted hkept hst, if_pos hsat]
    · rw [Station.handleLate_of_not_drifted hkept hst, if_neg (by simp [hsat])]
      rfl

/-! ## The place of an entry (R102) -/

/-- Positions at one distance from a position are one position. -/
theorem dist_left_inj {a b p : Pos} : dist a p = dist b p ↔ a = b := by
  rw [dist, dist, BitVec.toNat_inj, sub_left_inj]

/-- An entry does not stand before the nearer ones, nor before those at its fire position with its template number or a
lower one. -/
theorem Entry.not_standsBefore_iff (p : Pos) (e f : Entry) : e.standsBefore p f = false ↔
    dist f.fire p < dist e.fire p ∨ f.fire = e.fire ∧ f.template ≤ e.template := by
  have hbefore : e.standsBefore p f = false ↔
      dist f.fire p ≤ dist e.fire p ∧ (e.fire = f.fire → f.template ≤ e.template) := by
    simp [Entry.standsBefore]
  rw [hbefore, le_iff_lt_or_eq, dist_left_inj]
  constructor
  · rintro ⟨hlt | heq, htpl⟩
    · exact .inl hlt
    · exact .inr ⟨heq, htpl heq.symm⟩
  · rintro (hlt | ⟨heq, htpl⟩)
    · exact ⟨.inl hlt, fun heq => absurd (heq ▸ hlt) (lt_irrefl _)⟩
    · exact ⟨.inr heq, fun _ => htpl⟩

theorem Entry.not_standsBefore (p : Pos) (e f : Entry) : (!e.standsBefore p f) =
    (decide (dist f.fire p < dist e.fire p) || (f.fire == e.fire && decide (f.template ≤ e.template))) := by
  rw [Bool.eq_iff_iff]
  simpa using e.not_standsBefore_iff p f

/-- A new entry stands behind the entries up to the first that it stands before. -/
theorem insertEntry_eq (p : Pos) (e : Entry) (fs : List Entry) :
    insertEntry p e fs = fs.takeWhile (fun f => !e.standsBefore p f) ++
      e :: fs.dropWhile (fun f => !e.standsBefore p f) := by
  induction fs with
  | nil => rfl
  | cons f fs ih =>
    unfold insertEntry
    split
    · next hbefore => simp [hbefore]
    · next hbefore => simp [hbefore, ih]

/-! ## Insertion (R99, R104, R105) -/

theorem Template.matchesItem_iff (t : Template) (i : Item) : t.matchesItem i = true ↔
    t.enabled = true ∧ t.origins.getLsbD i.tag.origin.toNat = true ∧ t.lanes.getLsbD i.lane.toNat = true ∧
      t.classes.getLsbD i.cls.toNat = true := by
  simp [Template.matchesItem, and_assoc]

theorem Template.matchesItem_eq_false_iff (t : Template) (i : Item) : t.matchesItem i = false ↔
    t.enabled = false ∨ t.origins.getLsbD i.tag.origin.toNat = false ∨ t.lanes.getLsbD i.lane.toNat = false ∨
      t.classes.getLsbD i.cls.toNat = false := by
  simp only [Template.matchesItem, Bool.and_eq_false_iff, or_assoc]

namespace Station

variable {s : Station} {i : Item} {t : Fin 16}

theorem insertFor_of_not_matches (h : (s.template t).matchesItem i = false) : s.insertFor i t = s :=
  if_pos (by rw [h]; rfl)

theorem insertFor_of_late (hm : (s.template t).matchesItem i = true)
    (ha : ahead ((s.template t).firePosition i) s.pos.count = false) :
    s.insertFor i t = s.handleLate t i.tag (dist s.pos.count ((s.template t).firePosition i)) := by
  simp [insertFor, hm, ha]

theorem insertFor_of_full (hm : (s.template t).matchesItem i = true)
    (ha : ahead ((s.template t).firePosition i) s.pos.count = true) (hfull : 64 ≤ s.agenda.length) :
    s.insertFor i t = s.addRecord { kind := .agendaFull, item := some i.tag, template := some t } := by
  simp [insertFor, hm, ha, Config.agendaCapacity, hfull]

theorem insertFor_of_room (hm : (s.template t).matchesItem i = true)
    (ha : ahead ((s.template t).firePosition i) s.pos.count = true) (hroom : s.agenda.length < 64) :
    s.insertFor i t = s.addEntry t i ((s.template t).firePosition i) := by
  simp [insertFor, hm, ha, Config.agendaCapacity, Nat.not_le.mpr hroom]

theorem addEntry_of_unwindowed (hg : (s.template t).group = none) (f : Pos) : s.addEntry t i f =
    { s with agenda := insertEntry s.pos.count { fire := f, template := t, item := i.tag, claim := .none }
                         s.agenda } := by
  have hclaim : s.claimFor t i.tag f = { claim := .none, station := s } := by rw [claimFor, hg]
  rw [addEntry, hclaim]

theorem makeClaim_agenda (i : Tag) (g : BitVec 3) (p : Pos) (l : BitVec 16) :
    (s.makeClaim t i g p l).station.agenda = s.agenda := by
  obtain ⟨q, ev, k, heq⟩ := s.makeClaim_frame t i g p l
  rw [heq]

theorem addEntry_of_windowed {g : BitVec 3} (hg : (s.template t).group = some g) (f : Pos) {m : ClaimMade}
    (hmade : m = s.makeClaim t i.tag g ((s.template t).claimStart f) (s.template t).length) : s.addEntry t i f =
      { m.station with agenda := insertEntry s.pos.count { fire := f, template := t, item := i.tag, claim := m.claim }
                                   s.agenda } := by
  have hclaim : s.claimFor t i.tag f = m := by rw [claimFor, hg, hmade]
  have hagenda : m.station.agenda = s.agenda := by rw [hmade, makeClaim_agenda]
  rw [addEntry, hclaim, hagenda]

end Station

/-- Settles O34: the place of an entry, the turn of the templates, and each template by its match, its fire position and
the room in the agenda. -/
theorem templatesMakeEntries : Obligations.TemplatesMakeEntries := by
  refine ⟨fun p e fs => ?_, fun s t i ht => ?_, ?_⟩
  · simp only [insertEntry_eq, Entry.not_standsBefore]
  · rw [ht]
    rfl
  rintro s i t _ rfl
  refine ⟨fun hno => Station.insertFor_of_not_matches ((Template.matchesItem_eq_false_iff _ i).mpr hno),
    fun henabled horigin hlane hclass => ?_⟩
  have hmatch := (Template.matchesItem_iff _ i).mpr ⟨henabled, horigin, hlane, hclass⟩
  refine ⟨Station.insertFor_of_late hmatch, fun hahead => ⟨Station.insertFor_of_full hmatch hahead,
    fun hroom hg => ?_, fun hroom g hg m hmade => ?_⟩⟩
  · exact (Station.insertFor_of_room hmatch hahead hroom).trans (Station.addEntry_of_unwindowed hg _)
  · exact (Station.insertFor_of_room hmatch hahead hroom).trans (Station.addEntry_of_windowed hg _ hmade)

/-! ## The pre-check (R107) -/

/-- A window is in the way of a new one, told by the positions and lengths of both. -/
def BlocksWindow (now : Pos) (g : BitVec 3) (p : Pos) (l : BitVec 16) (g' : BitVec 3) (p' : Pos) (l' : BitVec 16) :
    Prop :=
  g' = g ∧ ahead (p' + l'.setWidth 24) now = true ∧ l ≠ 0 ∧ l' ≠ 0 ∧
    (p - now).toInt < (p' - now).toInt + l'.toNat ∧ (p' - now).toInt < (p - now).toInt + l.toNat

namespace Station

variable {s : Station} {g : BitVec 3} {p : Pos} {l : BitVec 16}

theorem inTheWay_iff {g' : BitVec 3} {p' : Pos} {l' : BitVec 16} :
    s.inTheWay g p l g' p' l' = true ↔ BlocksWindow s.pos.count g p l g' p' l' := by
  simp [inTheWay, windowsOverlap, windowEnd, windowStart, signedDist, BlocksWindow, and_assoc]

theorem queuedInTheWay_iff {e : TxEntry} : s.queuedInTheWay g p l e = true ↔
    ∃ q g' p' l', e.payload = .claim q g' p' l' ∧ BlocksWindow s.pos.count g p l g' p' l' := by
  unfold queuedInTheWay
  cases e.payload with
  | claim q g' p' l' =>
    refine inTheWay_iff.trans ⟨fun h => ⟨q, g', p', l', rfl, h⟩, ?_⟩
    rintro ⟨_, _, _, _, heq, h⟩
    cases heq
    exact h
  | _ => simp

/-- The pre-check asks the claims table and the queued CLAIMs for one window in the way. -/
theorem precheckFails_iff : s.precheckFails g p l = true ↔ ∃ g' p' l',
    ((∃ c ∈ s.claims, c.group = g' ∧ c.start = p' ∧ c.length = l') ∨
      ∃ e ∈ s.link.txq, ∃ q, e.payload = .claim q g' p' l') ∧ BlocksWindow s.pos.count g p l g' p' l' := by
  simp only [precheckFails, Bool.or_eq_true, List.any_eq_true, inTheWay_iff, queuedInTheWay_iff]
  constructor
  · rintro (⟨c, hc, hway⟩ | ⟨e, he, q, g', p', l', hp, hway⟩)
    · exact ⟨c.group, c.start, c.length, .inl ⟨c, hc, rfl, rfl, rfl⟩, hway⟩
    · exact ⟨g', p', l', .inr ⟨e, he, q, hp⟩, hway⟩
  · rintro ⟨g', p', l', ⟨c, hc, rfl, rfl, rfl⟩ | ⟨e, he, q, hp⟩, hway⟩
    · exact .inl ⟨c, hc, hway⟩
    · exact .inr ⟨e, he, q, g', p', l', hp, hway⟩

/-! ## Claim making (R106 to R108) -/

variable {t : Fin 16} {i : Tag}

theorem makeClaim_of_not_active (h : s.ctl.state ≠ .active) : s.makeClaim t i g p l =
    { claim := .lost, station := s.addRecord (windowLost i t none .state) } :=
  if_pos h

theorem makeClaim_of_precheck (hst : s.ctl.state = .active) (h : s.precheckFails g p l = true) :
    s.makeClaim t i g p l = { claim := .lost, station := s.addRecord (windowLost i t none .precheck) } := by
  simp [makeClaim, hst, h]

theorem makeClaim_of_clear (hst : s.ctl.state = .active) (h : s.precheckFails g p l = false) :
    s.makeClaim t i g p l = s.sendClaim t i g p l := by
  simp [makeClaim, hst, h]

theorem sendClaim_of_full (h : 16 ≤ s.link.txq.length) : s.sendClaim t i g p l =
    { claim := .lost
      station := s.addRecord { kind := .txqFull, item := some i, template := some t, reason := some 3 } } :=
  if_pos (txFull_of_full h)

theorem sendClaim_of_room (h : s.link.txq.length < 16) : s.sendClaim t i g p l =
    { claim := .wanted s.claimSeq
      station := { s with claimSeq := s.claimSeq + 1 }.pushTx (.claim s.claimSeq g p l) .agenda } := by
  rw [sendClaim, txFull_of_room h, if_neg Bool.false_ne_true]

end Station

/-- Settles O35: the state before the pre-check, the pre-check before the queue, and what a pre-check finds. -/
theorem claimsAreMadeInActive : Obligations.ClaimsAreMadeInActive := by
  refine fun s t item g p l => ⟨Station.makeClaim_of_not_active, Station.makeClaim_of_precheck,
    fun hst hclear => ⟨fun hfull => ?_, fun hroom => ?_⟩, Station.precheckFails_iff⟩
  · exact (Station.makeClaim_of_clear hst hclear).trans (Station.sendClaim_of_full hfull)
  · exact (Station.makeClaim_of_clear hst hclear).trans (Station.sendClaim_of_room hroom)

/-! ## The claim release (R41, R115) -/

theorem TxEntry.isWaitingClaim_iff (q : Seq8) (x : TxEntry) : x.isWaitingClaim q = true ↔
    x.inFlight = false ∧ ∃ g start length, x.payload = .claim q g start length := by
  unfold TxEntry.isWaitingClaim
  cases x.payload with
  | claim q' g start length => simp [and_comm]
  | _ => simp

namespace Station

variable {s : Station} {e : Entry} {q : Seq8}

theorem releaseClaim_of_unclaimed (h : e.claim = .none ∨ e.claim = .lost) : s.releaseClaim e = s := by
  rcases h with h | h <;> rw [releaseClaim, h]

theorem releaseClaim_of_held (h : e.claim = .held q) : s.releaseClaim e =
    if ahead ((s.template e.template).claimStart e.fire) s.pos.count then s.enqueue (.yield q) .agenda else s := by
  rw [releaseClaim, h]

theorem releaseClaim_of_wanted (h : e.claim = .wanted q) : s.releaseClaim e = s.withdrawClaim q := by
  rw [releaseClaim, h]

/-- A frame in flight is no waiting CLAIM, so a withdrawal leaves it in the queue (R41). -/
theorem mem_withdrawClaim_of_inFlight {x : TxEntry} (hx : x ∈ s.link.txq) (hfly : x.inFlight = true) (q : Seq8) :
    x ∈ (s.withdrawClaim q).link.txq := by
  have hnot : ¬x.isWaitingClaim q = true := fun hw =>
    Bool.false_ne_true ((TxEntry.inFlight_of_isWaitingClaim hw).symm.trans hfly)
  exact (List.mem_eraseP_of_neg hnot).mpr hx

end Station

theorem frameFields_yield (kind : EventKind) (own : Station5) (seq : Seq8) : frameFields kind own (.yield seq) =
    { kind := kind, claim := some { origin := own, seq := seq }, reason := some 2 } := rfl

/-- Settles O36: each claim state's release, and the CLAIM that a withdrawal takes. -/
theorem leavingEntriesReleaseTheirClaims : Obligations.LeavingEntriesReleaseTheirClaims := by
  rintro s e _ rfl
  refine ⟨Station.releaseClaim_of_unclaimed, fun q hheld => ?_, fun q hwanted => ?_⟩
  · rw [Station.releaseClaim_of_held hheld]
    refine ⟨fun hbegun => if_neg (Bool.not_eq_true _ ▸ hbegun), fun hahead hroom => ?_, fun hahead hfull => ?_⟩
    · exact (if_pos hahead).trans (Station.enqueue_of_room hroom _ _)
    · refine (if_pos hahead).trans ?_
      rw [Station.enqueue_of_full hfull, frameFields_yield]
  · rw [Station.releaseClaim_of_wanted hwanted]
    exact ⟨rfl, TxEntry.isWaitingClaim_iff q,
      fun x hx hfly => Station.mem_withdrawClaim_of_inFlight hx hfly q⟩

end Sys2Proof.Machine

/-! PROOF. The claims table: windows against a stamp, the checks and the place of a CLAIM, what each kind of frame makes
of the table, and what a take leaves of it (Chapter 7). -/

namespace Sys2Proof.Machine

/-! ## Windows (R119, R121) -/

/-- The distance between two positions, told by their distances from a third. -/
theorem dist_eq_of_ref (a b t : Pos) : dist a b = (dist a t + 16777216 - dist b t) % 16777216 := by
  have := a.isLt
  have := b.isLt
  have := t.isLt
  rw [dist_eq, dist_eq, dist_eq]
  omega

theorem windowStart_eq (p t : Pos) :
    windowStart p t = if dist p t < 8388608 then (dist p t : Int) else (dist p t : Int) - 16777216 := by
  rw [windowStart, signedDist, BitVec.toInt_eq_toNat_cond]
  simp only [dist]
  split_ifs <;> omega

theorem dist_finish (c : Claim) (t : Pos) : dist c.finish t = (dist c.start t + c.length.toNat) % 16777216 := by
  have := c.start.isLt
  have := c.length.isLt
  have := t.isLt
  rw [dist_eq, dist_eq, Claim.finish, windowEnd, BitVec.toNat_add, BitVec.toNat_setWidth]
  omega

/-- Two windows overlap against a stamp when each begins before the other ends (R121). -/
theorem windowsOverlap_iff (t p p' : Pos) (l l' : BitVec 16) : windowsOverlap t p l p' l' = true ↔
    l ≠ 0 ∧ l' ≠ 0 ∧ windowStart p t < windowStart p' t + l'.toNat ∧ windowStart p' t < windowStart p t + l.toNat := by
  simp [windowsOverlap, and_assoc]

/-- A window that begins ahead of a stamp and one that ends ahead of it lie within one turn of the belt, so a position
in both makes them overlap against that stamp. -/
theorem windowsOverlap_of_covers {c d : Claim} {t p : Pos} (hc : ahead c.start t = true) (hd : ahead d.finish t = true)
    (hcp : c.covers p) (hdp : d.covers p) : windowsOverlap t c.start c.length d.start d.length = true := by
  have := c.length.isLt
  have := d.length.isLt
  have : dist d.start t < 16777216 := (d.start - t).isLt
  have : dist p t < 16777216 := (p - t).isLt
  -- Every position is told by its distance from the stamp; the rest is arithmetic.
  rw [ahead_iff] at hc hd
  rw [dist_finish] at hd
  rw [Claim.covers, dist_eq_of_ref p _ t] at hcp hdp
  have hclen : c.length ≠ 0 := fun h => by rw [h] at hcp; exact absurd hcp (Nat.not_lt_zero _)
  have hdlen : d.length ≠ 0 := fun h => by rw [h] at hdp; exact absurd hdp (Nat.not_lt_zero _)
  rw [windowsOverlap_iff, windowStart_eq, windowStart_eq]
  refine ⟨hclen, hdlen, ?_, ?_⟩
  · split_ifs <;> omega
  · split_ifs <;> omega

/-! ## The place of a claim (R120) -/

/-- A claim stands behind the claims before the first of a greater key (R120). -/
theorem placeClaim_eq (t : Pos) (c : Claim) (ds : List Claim) :
    placeClaim t c ds = ds.takeWhile (fun d => decide (windowStart d.start t ≤ windowStart c.start t)) ++
      c :: ds.dropWhile (fun d => decide (windowStart d.start t ≤ windowStart c.start t)) := by
  induction ds with
  | nil => rfl
  | cons d ds ih =>
    unfold placeClaim
    split
    · next hlt => simp [not_le.mpr hlt]
    · next hle => simp [not_lt.mp hle, ih]

theorem placeClaim_perm (t : Pos) (c : Claim) (ds : List Claim) : (placeClaim t c ds).Perm (c :: ds) := by
  rw [placeClaim_eq]
  exact List.perm_middle.trans (by rw [List.takeWhile_append_dropWhile])

/-! ## The checks of a CLAIM (R127) -/

theorem Claim.clashes_iff (t : Pos) (c d : Claim) :
    c.clashes t d = true ↔ d.group = c.group ∧ windowsOverlap t c.start c.length d.start d.length = true := by
  simp [Claim.clashes]

namespace Station

variable {s : Station} {t : Pos} {c : Claim}

theorem findClaim_isSome_iff {tag : Tag} : (s.findClaim tag).isSome = true ↔ ∃ d ∈ s.claims, d.tag = tag := by
  simp [Station.findClaim, List.find?_isSome]

theorem findClaim_isSome_eq_false {tag : Tag} (h : ∀ d ∈ s.claims, d.tag ≠ tag) : (s.findClaim tag).isSome = false := by
  rw [← Bool.not_eq_true, findClaim_isSome_iff]
  exact fun ⟨d, hd, htag⟩ => h d hd htag

theorem claimRefusal_of_late (h : ahead c.start t = false) : s.claimRefusal t c = some .late := by
  rw [Station.claimRefusal, h]
  rfl

theorem claimRefusal_of_far (ha : ahead c.start t = true) (h : s.settings.claimHorizon.toNat < dist c.finish t) :
    s.claimRefusal t c = some .far := by
  rw [Station.claimRefusal, ha, if_neg (by decide), if_pos h]

/-- A claim that is neither late nor far is judged by the table alone. -/
theorem claimRefusal_of_near (ha : ahead c.start t = true) (h : dist c.finish t ≤ s.settings.claimHorizon.toNat) :
    s.claimRefusal t c =
      if (s.findClaim c.tag).isSome then some .dup
      else if s.claims.any (c.clashes t) then some .clash
      else if 32 ≤ s.claims.length then some .full
      else none := by
  rw [Station.claimRefusal, ha, if_neg (by decide), if_neg (Nat.not_lt.mpr h)]
  rfl

/-- What an accepted claim has passed. -/
structure Accepts (s : Station) (t : Pos) (c : Claim) : Prop where
  start : ahead c.start t = true
  finish : dist c.finish t ≤ s.settings.claimHorizon.toNat
  tag : ∀ d ∈ s.claims, d.tag ≠ c.tag
  window : ∀ d ∈ s.claims, c.clashes t d = false

theorem accepts_of_claimRefusal (h : s.claimRefusal t c = none) : s.Accepts t c := by
  cases ha : ahead c.start t with
  | false => rw [claimRefusal_of_late ha] at h; cases h
  | true =>
    rcases Nat.lt_or_ge s.settings.claimHorizon.toNat (dist c.finish t) with hfar | hnear
    · rw [claimRefusal_of_far ha hfar] at h; cases h
    · rw [claimRefusal_of_near ha hnear] at h
      split_ifs at h with hdup hclash
      exact ⟨ha, hnear, fun d hd htag => hdup (findClaim_isSome_iff.mpr ⟨d, hd, htag⟩),
        fun d hd => Bool.eq_false_iff.mpr fun hway => hclash (List.any_eq_true.mpr ⟨d, hd, hway⟩)⟩

/-- An accepted claim begins ahead of the stamp and ends within the claim horizon, so it ends ahead of the stamp. -/
theorem Accepts.finish_ahead (h : s.Accepts t c) : ahead c.finish t = true := by
  have := c.length.isLt
  have := s.settings.claimHorizon.isLt
  obtain ⟨hstart, hfinish, -, -⟩ := h
  rw [ahead_iff] at hstart ⊢
  rw [dist_finish] at hfinish ⊢
  omega

/-- The checks look at the table and the claim horizon alone (R136). -/
theorem claimRefusal_congr {u : Station} (hh : s.settings.claimHorizon = u.settings.claimHorizon)
    (hc : s.claims = u.claims) (t : Pos) (c : Claim) : s.claimRefusal t c = u.claimRefusal t c := by
  unfold Station.claimRefusal Station.findClaim
  rw [hh, hc]

theorem takeClaim_other_of_accepted (h : s.claimRefusal t c = none) :
    s.takeClaim false t c = { s with claims := placeClaim t c s.claims } := by
  rw [Station.takeClaim, h]
  rfl

theorem takeClaim_own_of_accepted (h : s.claimRefusal t c = none) :
    s.takeClaim true t c = ({ s with claims := placeClaim t c s.claims }).ownEntered c.tag.seq := by
  rw [Station.takeClaim, h]
  rfl

theorem takeClaim_other_of_refused {r : LossReason} (h : s.claimRefusal t c = some r) : s.takeClaim false t c = s := by
  rw [Station.takeClaim, h]
  rfl

theorem takeClaim_own_of_refused {r : LossReason} (h : s.claimRefusal t c = some r) :
    s.takeClaim true t c = s.loseClaim c.tag.seq r := by
  rw [Station.takeClaim, h]
  rfl

end Station

/-- The clash of R127, told by positions and lengths. -/
theorem any_clashes_iff (ds : List Claim) (t : Pos) (c : Claim) : ds.any (c.clashes t) = true ↔
    ∃ d ∈ ds, d.group = c.group ∧ d.length ≠ 0 ∧ c.length ≠ 0 ∧
      (c.start - t).toInt < (d.start - t).toInt + d.length.toNat ∧
      (d.start - t).toInt < (c.start - t).toInt + c.length.toNat := by
  simp only [List.any_eq_true, Claim.clashes_iff, windowsOverlap_iff, windowStart, signedDist, and_left_comm]

theorem any_clashes_eq_false {ds : List Claim} {t : Pos} {c : Claim}
    (h : ∀ d ∈ ds, d.group = c.group → d.length = 0 ∨ c.length = 0 ∨
      (d.start - t).toInt + d.length.toNat ≤ (c.start - t).toInt ∨
      (c.start - t).toInt + c.length.toNat ≤ (d.start - t).toInt) : ds.any (c.clashes t) = false := by
  rw [← Bool.not_eq_true, any_clashes_iff]
  rintro ⟨d, hd, hgroup, hdlen, hclen, hcd, hdc⟩
  rcases h d hd hgroup with h | h | h | h
  · exact hdlen h
  · exact hclen h
  · exact absurd hcd (not_lt.mpr h)
  · exact absurd hdc (not_lt.mpr h)

/-- Settles O29: each check answers where those before it pass, and an entered claim takes its place. -/
theorem claimChecksInOrder : Obligations.ClaimChecksInOrder := by
  refine ⟨placeClaim_eq, fun s t c => ⟨Station.claimRefusal_of_late, Station.claimRefusal_of_far, fun ha hnear => ?_,
    Station.takeClaim_other_of_accepted, fun href => ?_, fun hacc => ?_⟩⟩
  · have hchecks := Station.claimRefusal_of_near ha hnear
    refine ⟨fun hdup => hchecks.trans (if_pos (Station.findClaim_isSome_iff.mpr hdup)), fun hnew => ?_⟩
    rw [Station.findClaim_isSome_eq_false hnew, if_neg Bool.false_ne_true] at hchecks
    refine ⟨fun hclash => hchecks.trans (if_pos ((any_clashes_iff _ t c).mpr hclash)), fun hapart => ?_⟩
    rw [any_clashes_eq_false hapart, if_neg Bool.false_ne_true] at hchecks
    exact ⟨fun hfull => hchecks.trans (if_pos hfull), fun hroom => hchecks.trans (if_neg (Nat.not_le.mpr hroom))⟩
  · obtain ⟨r, hr⟩ := Option.isSome_iff_exists.mp href
    exact ⟨Station.takeClaim_other_of_refused hr, (s.takeClaim_claims true t c).trans (if_neg (by simp [hr]))⟩
  · exact (s.takeClaim_claims true t c).trans (if_pos hacc)

/-! ## What each kind of frame makes of the table (R125, R127, R128, R130) -/

namespace Station

variable {s : Station} {f : Frame}

theorem applyFrame_of_claim {q : Seq8} {g : BitVec 3} {p : Pos} {l : BitVec 16} (h : f.payload = .claim q g p l)
    (own : Bool) : s.applyFrame own f = (s.purge f.stamp).takeClaim own f.stamp
      { tag := { origin := f.sender, seq := q }, group := g, start := p, length := l } := by
  unfold Station.applyFrame Station.applyKind
  rw [h]

theorem applyFrame_of_yield {q : Seq8} (h : f.payload = .yield q) (own : Bool) :
    s.applyFrame own f = (s.purge f.stamp).takeYield { origin := f.sender, seq := q } := by
  unfold Station.applyFrame Station.applyKind
  rw [h]

/-- A frame that is no CLAIM and no YIELD changes the table by the purge alone (R125). -/
theorem applyFrame_claims_of_other (hc : f.payload.kind ≠ .claim) (hy : f.payload.kind ≠ .yield) (own : Bool) :
    (s.applyFrame own f).claims = s.claims.filter (fun c => ahead c.finish f.stamp) :=
  applyKind_claims_of (s := s.purge f.stamp) hc hy

/-- What a frame can make of the purged table: a claim with a tag leaves, or an accepted claim is entered. -/
theorem applyFrame_claims_cases (s : Station) (own : Bool) (f : Frame) :
    (s.applyFrame own f).claims.Sublist (s.purge f.stamp).claims ∨
      ∃ c, (s.purge f.stamp).Accepts f.stamp c ∧
        (s.applyFrame own f).claims = placeClaim f.stamp c (s.purge f.stamp).claims := by
  cases hp : f.payload with
  | claim q g p l =>
    rw [applyFrame_of_claim hp, takeClaim_claims]
    split
    · next hacc => exact .inr ⟨_, accepts_of_claimRefusal hacc, rfl⟩
    · exact .inl (.refl _)
  | yield q =>
    rw [applyFrame_of_yield hp]
    exact .inl List.eraseP_sublist
  | _ =>
    rw [applyFrame_claims_of_other (by rw [hp]; nofun) (by rw [hp]; nofun)]
    exact .inl (.refl _)

/-- The claim horizon, the table and the frame decide what is made of the table, at the sender as elsewhere (R136). -/
theorem applyFrame_claims_congr {u : Station} (hh : s.settings.claimHorizon = u.settings.claimHorizon)
    (hc : s.claims = u.claims) (own own' : Bool) (f : Frame) :
    (s.applyFrame own f).claims = (u.applyFrame own' f).claims := by
  have hpurge : (s.purge f.stamp).claims = (u.purge f.stamp).claims := congrArg (List.filter _) hc
  cases hp : f.payload with
  | claim q g p l =>
    rw [applyFrame_of_claim hp, applyFrame_of_claim hp, takeClaim_claims, takeClaim_claims,
      claimRefusal_congr (s := s.purge f.stamp) (u := u.purge f.stamp) hh hpurge, hpurge]
  | yield q =>
    rw [applyFrame_of_yield hp, applyFrame_of_yield hp]
    exact congrArg (List.eraseP _) hpurge
  | _ =>
    have hclaim : f.payload.kind ≠ .claim := by rw [hp]; nofun
    have hyield : f.payload.kind ≠ .yield := by rw [hp]; nofun
    rw [applyFrame_claims_of_other hclaim hyield, applyFrame_claims_of_other hclaim hyield, hc]

/-- After the purge and the application every claim ends ahead of the stamp (R125). -/
theorem ahead_of_mem_applyFrame (s : Station) (own : Bool) (f : Frame) :
    ∀ c ∈ (s.applyFrame own f).claims, ahead c.finish f.stamp = true := by
  have hpurged : ∀ c ∈ (s.purge f.stamp).claims, ahead c.finish f.stamp = true := fun c hc => (List.mem_filter.mp hc).2
  intro c hc
  rcases s.applyFrame_claims_cases own f with hsub | ⟨d, hacc, heq⟩
  · exact hpurged c (hsub.mem hc)
  · rw [heq, (placeClaim_perm _ _ _).mem_iff, List.mem_cons] at hc
    rcases hc with rfl | hc
    · exact hacc.finish_ahead
    · exact hpurged c hc

/-! ## The frame that a take applies (R34) -/

/-- The station takes frame `g` at a FRAME_TAKE of `f`: it decodes `f`, or it has `g` in flight (log 8). -/
def Takes (s : Station) (f g : Frame) : Prop := s.Decoding ∧ g = f ∨ s.receiverOn = true ∧ s.ownFrame = some g

theorem takes_own (hon : s.receiverOn = true) (h : s.headInFlight = true) (f : Frame) :
    ∃ g, s.Takes f g ∧ g.stamp = s.pos.capture := by
  obtain ⟨e, es, hq, he⟩ := exists_head_of_inFlight h
  refine ⟨{ sender := s.settings.stationNumber, stamp := s.pos.capture, payload := e.payload }, .inr ⟨hon, ?_⟩, rfl⟩
  unfold Station.ownFrame
  rw [hq]
  exact if_pos he

/-- A FRAME_TAKE takes a frame, or changes nothing. -/
theorem takes_or_unchanged (s : Station) (f : Frame) : (∃ g, s.Takes f g) ∨ s.takeFrame f = s := by
  cases hon : s.receiverOn with
  | false => exact .inr (takeFrame_of_off hon f)
  | true =>
    cases hfly : s.headInFlight with
    | true =>
      obtain ⟨g, hg, -⟩ := takes_own hon hfly f
      exact .inl ⟨g, hg⟩
    | false =>
      cases hr : s.link.receiving with
      | true => exact .inl ⟨f, .inl ⟨⟨hon, hfly, hr⟩, rfl⟩⟩
      | false => exact .inr (takeFrame_of_nothing hfly hr f)

/-- What goes before the purge leaves the table and the settings. -/
theorem Takes.applies {g : Frame} (h : s.Takes f g) : ∃ (t : Station) (own : Bool), t.claims = s.claims ∧
    t.settings = s.settings ∧ s.takeFrame f = t.applyFrame own g := by
  rcases h with ⟨hdec, rfl⟩ | ⟨hon, hown⟩
  · obtain ⟨p, l, ct, se, ag, ch, ev, heq⟩ := s.frameOver.beforePurge_frame g (g.stamp - s.pos.capture)
    refine ⟨{ s with pos := p, link := l, ctl := ct, sense := se, agenda := ag, channels := ch, events := ev }, false,
      rfl, rfl, ?_⟩
    exact (takeFrame_of_decoding hdec g).trans (congrArg (Station.applyFrame false g) heq)
  · refine ⟨s.frameOver.takeOwn, true, rfl, rfl, ?_⟩
    unfold Station.takeFrame
    rw [hon, hown]
    rfl

end Station

/-- Settles O27: every take purges, and the claim that a CLAIM enters ends ahead of its stamp. -/
theorem everyTakePurges : Obligations.EveryTakePurges := by
  refine fun s f => ⟨fun hdec hc hy => ⟨_, exec_eq_effectOf _ _, ?_⟩, ⟨_, exec_eq_effectOf _ _, ?_⟩,
    fun hdec => ⟨_, exec_eq_effectOf _ _, ?_⟩, fun hon hfly => ⟨_, exec_eq_effectOf _ _, ?_⟩⟩
  · obtain ⟨t, own, hclaims, -, htake⟩ := Station.Takes.applies (.inl ⟨hdec, rfl⟩)
    exact (congrArg Station.claims htake).trans (hclaims ▸ Station.applyFrame_claims_of_other hc hy own)
  · show (Station.frameRejected _).claims = _
    unfold Station.frameRejected
    split <;> rfl
  · obtain ⟨t, own, -, -, htake⟩ := Station.Takes.applies (.inl ⟨hdec, rfl⟩)
    show ∀ c ∈ (s.takeFrame f).claims, _
    rw [htake]
    exact t.ahead_of_mem_applyFrame own f
  · obtain ⟨g, htakes, hstamp⟩ := Station.takes_own hon hfly f
    obtain ⟨t, own, -, -, htake⟩ := htakes.applies
    show ∀ c ∈ (s.takeFrame f).claims, _
    rw [htake, ← hstamp]
    exact t.ahead_of_mem_applyFrame own g

/-- Settles O28: both stations apply the one frame to one table under one horizon. -/
theorem stationsAgreeOnClaims : Obligations.StationsAgreeOnClaims := by
  intro s₁ s₂ f h₁ h₂ hh hc
  refine ⟨⟨_, _, exec_eq_effectOf _ _, exec_eq_effectOf _ _, ?_⟩, fun c => ?_⟩
  · obtain ⟨t₁, own₁, hc₁, hs₁, htake₁⟩ := Station.Takes.applies (h₁.imp_left fun hdec => ⟨hdec, rfl⟩)
    obtain ⟨t₂, own₂, hc₂, hs₂, htake₂⟩ := Station.Takes.applies (.inl ⟨h₂, rfl⟩)
    show (s₁.takeFrame f).claims = (s₂.takeFrame f).claims
    rw [htake₁, htake₂]
    exact Station.applyFrame_claims_congr (by rw [hs₁, hs₂, hh]) (hc₁.trans (hc.trans hc₂.symm)) own₁ own₂ f
  · exact Station.claimRefusal_congr (s := s₁.purge f.stamp) (u := s₂.purge f.stamp) hh (congrArg (List.filter _) hc)
      f.stamp c

/-! ## YIELD (R130) -/

/-- In a table without two claims of one tag, the claim with a tag is all that has it. -/
theorem eraseP_tag_eq_filter {ds : List Claim} (h : ds.Pairwise (fun c d => c.tag ≠ d.tag)) (tag : Tag) :
    ds.eraseP (fun c => c.tag == tag) = ds.filter (fun c => c.tag != tag) := by
  induction ds with
  | nil => rfl
  | cons d ds ih =>
    obtain ⟨hd, hds⟩ := List.pairwise_cons.mp h
    by_cases htag : d.tag = tag
    · have hrest : ds.filter (fun c => c.tag != tag) = ds :=
        List.filter_eq_self.mpr fun c hc => bne_iff_ne.mpr fun hct => hd c hc (htag.trans hct.symm)
      simp [htag, hrest]
    · simp [htag, ih hds]

namespace Station

variable {s : Station} {f : Frame} {q : Seq8}

theorem applyFrame_of_yield_filter {own : Bool} (hapart : s.claims.Pairwise (fun c d => c.tag ≠ d.tag))
    (h : f.payload = .yield q) : s.applyFrame own f =
      { s with claims := (s.claims.filter (fun c => ahead c.finish f.stamp)).filter
                 (fun c => c.tag != { origin := f.sender, seq := q }) } := by
  rw [applyFrame_of_yield h, ← eraseP_tag_eq_filter (hapart.sublist List.filter_sublist)]
  rfl

/-- Within tolerance the position step of a station in service changes nothing, so the DUP_STATION record alone comes
before the purge (R19, R34, R44). -/
theorem takeFrame_of_within (hdec : s.Decoding) (hst : s.ctl.state = .settling ∨ s.ctl.state = .active)
    (hk : (f.stamp - s.pos.capture).toInt.natAbs ≤ s.settings.skewTolerance.toNat) :
    s.takeFrame f = ({ s.frameOver with events := s.notedEvents f } : Station).applyFrame false f := by
  have hmute : s.ctl.state ≠ .mute := by rcases hst with h | h <;> rw [h] <;> decide
  rw [takeFrame_of_decoding hdec, Station.takeOther, noteDuplicate_eq, countGoodFrame_of_not_mute,
    judgePosition_of_inService, checkSkew_within]
  · rfl
  · exact hk
  · exact hst
  · exact hmute

end Station

/-- Settles O30: the purge, then the one claim of the YIELD's tag. -/
theorem yieldsRemoveTheirClaim : Obligations.YieldsRemoveTheirClaim := by
  refine fun s f q hapart => ⟨fun hdec hst hp hk => exec_of_effect ?_, fun hdec hp => ⟨_, exec_eq_effectOf _ _, ?_⟩,
    fun e es hon hq he hp => exec_of_effect ?_⟩
  · exact (Station.takeFrame_of_within hdec hst hk).trans (Station.applyFrame_of_yield_filter
      (s := { s.toStation.frameOver with events := s.notedEvents f }) hapart hp)
  · obtain ⟨t, own, hclaims, -, htake⟩ := Station.Takes.applies (.inl ⟨hdec, rfl⟩)
    rw [← hclaims] at hapart ⊢
    exact congrArg Station.claims (htake.trans (Station.applyFrame_of_yield_filter hapart hp))
  · refine (Station.takeFrame_of_own hon hq he f).trans ?_
    rw [Station.takeOwn_eq hq]
    exact Station.applyFrame_of_yield_filter hapart hp

/-! ## The owner side of a CLAIM (R132, R133) -/

namespace Station

variable {s : Station} {t : Pos} {c : Claim} {f : Entry} {r : LossReason}

theorem takeClaim_own_held (hf : s.agenda.find? (Entry.wants c.tag.seq) = some f) (h : s.claimRefusal t c = none) :
    s.takeClaim true t c =
      { s with claims := placeClaim t c s.claims, agenda := settleFirst c.tag.seq (.held c.tag.seq) s.agenda } := by
  rw [takeClaim_own_of_accepted h, Station.ownEntered, hf]

theorem takeClaim_own_orphan (hf : s.agenda.find? (Entry.wants c.tag.seq) = none) (h : s.claimRefusal t c = none) :
    s.takeClaim true t c = (({ s with claims := placeClaim t c s.claims } : Station).addRecord
      { kind := .orphanYield, claim := some { origin := s.settings.stationNumber, seq := c.tag.seq } }).enqueue
        (.yield c.tag.seq) .link := by
  rw [takeClaim_own_of_accepted h, Station.ownEntered, hf]

theorem takeClaim_own_orphan_of_room (hf : s.agenda.find? (Entry.wants c.tag.seq) = none)
    (h : s.claimRefusal t c = none) (hroom : s.link.txq.length < 16) : s.takeClaim true t c =
      { s with
        claims := placeClaim t c s.claims
        link.txq := s.link.txq ++ [{ payload := .yield c.tag.seq, attempts := 0, origin := .link, inFlight := false }]
        events := s.eventsWith
          { kind := .orphanYield, claim := some { origin := s.settings.stationNumber, seq := c.tag.seq } } } := by
  rw [takeClaim_own_orphan hf h, enqueue_of_room]
  · rfl
  · exact hroom

theorem takeClaim_own_orphan_of_full (hf : s.agenda.find? (Entry.wants c.tag.seq) = none)
    (h : s.claimRefusal t c = none) (hfull : 16 ≤ s.link.txq.length) : s.takeClaim true t c =
      { s with
        claims := placeClaim t c s.claims
        events := pushEvent
          { fields := { kind := .txqFull, reason := some 2,
                        claim := some { origin := s.settings.stationNumber, seq := c.tag.seq } },
            pos := s.pos.count, lostAfter := false }
          (s.eventsWith
            { kind := .orphanYield, claim := some { origin := s.settings.stationNumber, seq := c.tag.seq } }) } := by
  rw [takeClaim_own_orphan hf h, enqueue_of_full]
  · rfl
  · exact hfull

theorem takeClaim_own_lost (hf : s.agenda.find? (Entry.wants c.tag.seq) = some f) (h : s.claimRefusal t c = some r) :
    s.takeClaim true t c =
      { s with agenda := settleFirst c.tag.seq .lost s.agenda,
               events := s.eventsWith (windowLost f.item f.template
                 (some { origin := s.settings.stationNumber, seq := c.tag.seq }) r) } := by
  rw [takeClaim_own_of_refused h, loseClaim_of_some hf]

theorem takeClaim_own_unwanted (hf : s.agenda.find? (Entry.wants c.tag.seq) = none)
    (h : s.claimRefusal t c = some r) : s.takeClaim true t c = s := by
  rw [takeClaim_own_of_refused h, loseClaim_of_none hf]

/-- The take of the own CLAIM, behind the bookkeeping and the purge (R34, R35). -/
theorem takeFrame_of_own_claim {e : TxEntry} {es : List TxEntry} {q : Seq8} {g : BitVec 3} {p : Pos} {l : BitVec 16}
    (hon : s.receiverOn = true) (hq : s.link.txq = e :: es) (he : e.inFlight = true) (hp : e.payload = .claim q g p l)
    (x : Frame) : s.takeFrame x =
      ({ s with link.receiving := false, link.drive := .released, link.txq := es, link.fails := 0,
                link.ownTaken := true, link.mark := s.fullMark,
                claims := s.claims.filter (fun c => ahead c.finish s.pos.capture) } : Station).takeClaim true
        s.pos.capture
        { tag := { origin := s.settings.stationNumber, seq := q }, group := g, start := p, length := l } := by
  rw [takeFrame_of_own hon hq he, takeOwn_eq hq, applyFrame_of_claim hp]
  rfl

end Station

/-- Settles O22: the claim is entered or refused, and an entry waits for it or none does. -/
theorem ownClaimsAreHeldOrLost : Obligations.OwnClaimsAreHeldOrLost := by
  rintro s x e es q g p l _ _ hon hq he hp rfl rfl
  have htake := Station.takeFrame_of_own_claim hon hq he hp x
  refine ⟨fun f hf hacc => exec_of_effect (htake.trans ?_), fun f r hf hr => exec_of_effect (htake.trans ?_),
    fun hf hacc hroom => exec_of_effect (htake.trans ?_), fun hf hacc hfull => exec_of_effect (htake.trans ?_),
    fun r hf hr => exec_of_effect (htake.trans ?_)⟩
  · exact Station.takeClaim_own_held hf hacc
  · exact Station.takeClaim_own_lost hf hr
  · exact Station.takeClaim_own_orphan_of_room hf hacc hroom
  · exact Station.takeClaim_own_orphan_of_full hf hacc hfull
  · exact Station.takeClaim_own_unwanted hf hr

end Sys2Proof.Machine

/-! PROOF. The claims table under every step: a purge, a YIELD, a STOP and a reset take claims away, and a claim is
entered only where its window is clear. -/

namespace Sys2Proof.Machine

/-- Two claims of different tags whose windows, in one group, have no position in common (R120). -/
def Claim.Apart (c d : Claim) : Prop := c.tag ≠ d.tag ∧ (c.group = d.group → ∀ p, ¬(c.covers p ∧ d.covers p))

theorem Claim.Apart.symm {c d : Claim} : c.Apart d → d.Apart c :=
  fun ⟨htag, hwindow⟩ => ⟨htag.symm, fun hgroup p hp => hwindow hgroup.symm p hp.symm⟩

namespace Station

variable {s t : Station}

/-! ## Takes -/

/-- An accepted claim is apart from every claim of a table in which all end ahead of the stamp. -/
theorem Accepts.apart {p : Pos} {c d : Claim} (h : s.Accepts p c) (hd : d ∈ s.claims)
    (hahead : ahead d.finish p = true) : c.Apart d := by
  refine ⟨(h.tag d hd).symm, fun hgroup q ⟨hcq, hdq⟩ => ?_⟩
  have hclash := (Claim.clashes_iff p c d).mpr ⟨hgroup.symm, windowsOverlap_of_covers h.start hahead hcq hdq⟩
  exact absurd hclash (Bool.eq_false_iff.mp (h.window d hd))

theorem ClaimsConsistent.of_sublist (h : s.ClaimsConsistent) (hsub : t.claims.Sublist s.claims) : t.ClaimsConsistent :=
  h.sublist hsub

theorem ClaimsConsistent.of_eq (h : s.ClaimsConsistent) (heq : t.claims = s.claims) : t.ClaimsConsistent :=
  h.of_sublist (heq ▸ .refl _)

theorem ClaimsConsistent.applyFrame (h : s.ClaimsConsistent) (own : Bool) (f : Frame) :
    (s.applyFrame own f).ClaimsConsistent := by
  have hpurge : (s.purge f.stamp).ClaimsConsistent := h.of_sublist List.filter_sublist
  rcases s.applyFrame_claims_cases own f with hsub | ⟨c, hacc, heq⟩
  · exact hpurge.of_sublist hsub
  · show List.Pairwise Claim.Apart _
    rw [heq, (placeClaim_perm _ _ _).pairwise_iff Claim.Apart.symm]
    exact List.pairwise_cons.mpr ⟨fun d hd => hacc.apart hd (List.mem_filter.mp hd).2, hpurge⟩

theorem ClaimsConsistent.takeFrame (h : s.ClaimsConsistent) (f : Frame) : (s.takeFrame f).ClaimsConsistent := by
  rcases s.takes_or_unchanged f with ⟨g, hg⟩ | heq
  · obtain ⟨t, own, hclaims, -, heq⟩ := hg.applies
    rw [heq]
    exact (h.of_eq hclaims).applyFrame own g
  · rwa [heq]

/-! ## Operations that leave the table -/

theorem countFailure_claims (s : Station) : s.countFailure.claims = s.claims := by
  unfold Station.countFailure
  split
  · rfl
  · split
    · unfold Station.enterMute
      obtain ⟨ag, ev, heq⟩ := Station.flushQueue_frame (Station.changeState .mute .sendFailures _)
      rw [heq]
      rfl
    · rfl

theorem failHead_claims (s : Station) (e : TxEntry) : (s.failHead e).claims = s.claims := by
  unfold Station.failHead
  rw [countFailure_claims]
  split
  · rfl
  · unfold Station.dropHead
    obtain ⟨ag, ev, heq⟩ := Station.handBack_frame false (Station.addRecord _ _) e
    rw [heq]
    rfl

theorem attemptFails_claims (s : Station) : s.attemptFails.claims = s.claims := by
  unfold Station.attemptFails
  split
  · rfl
  · split
    · exact failHead_claims _ _
    · rfl

theorem findBitClash_claims (s : Station) : s.findBitClash.claims = s.claims := by
  unfold Station.findBitClash
  split
  · rfl
  · split
    · exact failHead_claims _ _
    · rfl

theorem judgeLevels_claims (s : Station) (levels : List Bool) : (s.judgeLevels levels).claims = s.claims := by
  unfold Station.judgeLevels
  split
  · split <;> rfl
  · rfl

theorem markExpires_claims (s : Station) : s.markExpires.claims = s.claims := by
  unfold Station.markExpires
  split
  · rfl
  · split
    · rfl
    · split <;> rfl

theorem encoderChange_claims (s : Station) (new : EncLevels) : (s.encoderChange new).claims = s.claims := by
  obtain ⟨dir, sub, cnt, hframe⟩ := s.encoderChange_stepFrame new
  exact hframe.claims

/-- An update on a condition leaves the table where the update does. -/
theorem claims_ite {c : Prop} {_ : Decidable c} (h : t.claims = s.claims) : (if c then t else s).claims = s.claims := by
  split
  · exact h
  · rfl

end Station

/-! ## Every step -/

theorem claimsConsistent_keptByBlocks : KeptByBlocks Station.ClaimsConsistent where
  ties _ _ h := h
  port _ _ h := h
  events _ _ h := h
  resetAt _ _ := .nil
  tick _ h := h
  encoderChange s new h := h.of_eq (s.encoderChange_claims new)
  seeStartBit _ h := h.of_eq (Station.claims_ite rfl)
  seeIdleGap _ h := h.of_eq (Station.claims_ite rfl)
  startFrame _ h := h.of_eq (Station.claims_ite rfl)
  loseArbitration _ h := h.of_eq (Station.claims_ite rfl)
  findBitClash s h := h.of_eq s.findBitClash_claims
  attemptFails s h := h.of_eq s.attemptFails_claims
  judgeLevels s levels h := h.of_eq (s.judgeLevels_claims levels)
  frameRejected _ h := h.of_eq (Station.claims_ite rfl)
  takeFrame _ f h := h.takeFrame f
  markExpires s h := h.of_eq s.markExpires_claims
  joinExpires _ h := h.of_eq (Station.claims_ite rfl)
  sensorRead s n level h := by
    obtain ⟨se, q, ev, heq⟩ := s.sensorRead_frame n level
    exact h.of_eq (by rw [heq])
  auxRead s n level h := by
    obtain ⟨a, ch, ev, k, heq⟩ := s.auxRead_frame n level
    exact h.of_eq (by rw [heq])
  delayExpires s c h := by
    obtain ⟨ch, heq⟩ := s.delayExpires_frame c
    exact h.of_eq (by rw [heq])
  highExpires s c h := by
    obtain ⟨ch, ev, heq⟩ := s.highExpires_frame c
    exact h.of_eq (by rw [heq])
  lowExpires s c h := by
    obtain ⟨ch, heq⟩ := s.lowExpires_frame c
    exact h.of_eq (by rw [heq])
  holdCapExpires s c h := by
    obtain ⟨ch, ev, heq⟩ := s.holdCapExpires_frame c
    exact h.of_eq (by rw [heq])
  accept _ _ _ h := h
  stop _ _ := .nil
  resume s _ h := by
    obtain ⟨ct, m, ev, heq⟩ := Station.returnToResume_frame { s with link.goodRun := 0 } .resume
    exact h.of_eq (by rw [heq])
  makeSighting s pos lane cls _ h := by
    obtain ⟨q, ev, heq⟩ := s.makeSighting_frame pos lane cls
    exact h.of_eq (by rw [heq])
  enqueueHost s p _ h := by
    obtain ⟨q, ev, heq⟩ := s.enqueue_frame p .host
    exact h.of_eq (by rw [heq])
  removeItem s tag _ h := by
    obtain ⟨q, ev, heq⟩ := s.removeItem_frame tag
    exact h.of_eq (by rw [heq])
  fireRequest s c sl src item h := by
    obtain ⟨ch, ev, heq⟩ := s.fireRequest_frame c sl src item
    exact h.of_eq (by rw [heq])
  setCommit _ _ _ h := h
  takeItem s i x t _ ht h := by
    obtain ⟨rf, sb, ch, ev, k, heq⟩ := (Station.takeItem_frame ht).eq
    exact h.of_eq (by rw [heq])

/-- Settles O59, block by block: claims leave, or a claim enters that is apart from every claim of the purged table. -/
theorem everyStepKeepsWindowsDisjoint : Obligations.EveryStepKeepsWindowsDisjoint :=
  claimsConsistent_keptByBlocks.keptByEveryStep

end Sys2Proof.Machine

/-! PROOF. Output channels: loads, fire requests, the phases of a sequence with its end and chain, and the output pins. -/

namespace Sys2Proof.Machine

/-! ## Loads (R149) -/

theorem FormSlot.takeCommit_eq (f : FormSlot) :
    f.takeCommit = { live := if f.pending then f.staged else f.live, staged := f.staged, pending := false } := by
  obtain ⟨live, staged, pending⟩ := f
  cases pending <;> rfl

theorem Form.pulsesAfterFirst_eq (f : Form) :
    f.pulsesAfterFirst = if f.kind = .burst then f.burst.toNat - 1 else 0 := by
  unfold Form.pulsesAfterFirst
  cases f.kind <;> rfl

namespace Channel

variable (ch : Channel) (sl : Slot) (source : Source) (item : Option Tag)

theorem slot_load_same : (ch.load sl source item).slot sl = (ch.slot sl).takeCommit := by
  cases sl <;> rfl

theorem slot_load_other {sl sl' : Slot} (h : sl' ≠ sl) : (ch.load sl source item).slot sl' = ch.slot sl' := by
  refine Eq.trans ?_ (Channel.slot_setSlot_other ch h (ch.slot sl).takeCommit)
  cases sl' <;> rfl

theorem run_load : (ch.load sl source item).run = some ((ch.slot sl).takeCommit.live.startRun sl source item) := rfl

/-- A load starts in DELAY or in HIGH. -/
theorem load_phase_ne_hold {r : Run} (h : (ch.load sl source item).run = some r) : r.phase ≠ .hold := by
  obtain rfl : Form.startRun _ sl source item = r := Option.some.inj h
  unfold Form.startRun
  dsimp only
  split <;> decide

/-! ## The output (R143) -/

theorem active_iff : ch.active = true ↔ ∃ r, ch.run = some r ∧ (r.phase = .high ∨ r.phase = .hold) := by
  unfold Channel.active
  cases ch.run with
  | none => simp
  | some r => simp

end Channel

namespace Station

variable {s : Station} {c : Fin 4} {sl : Slot} {r : Run}

theorem outputPin_of_activeHigh (h : (s.settings.channels.get c).polarity = .activeHigh) :
    s.outputPin c = (s.chan c).active := by
  unfold Station.outputPin
  rw [h]
  rfl

theorem outputPin_of_activeLow (h : (s.settings.channels.get c).polarity = .activeLow) :
    s.outputPin c = !(s.chan c).active := by
  unfold Station.outputPin
  rw [h]
  rfl

/-! ## Fire requests (R148, R158) -/

theorem fireOutcome_of_inhibited (h : s.inhibits c = true) : s.fireOutcome c = .inhibited := if_pos h

theorem fireOutcome_of_running (hin : s.inhibits c = false) (hrun : (s.chan c).run.isSome = true) :
    s.fireOutcome c = .collision := by
  simp [Station.fireOutcome, hin, hrun]

theorem fireOutcome_of_idle (hin : s.inhibits c = false) (hrun : (s.chan c).run = none) :
    s.fireOutcome c = .loaded := by
  simp [Station.fireOutcome, hin, hrun]

theorem fireRequest_of_inhibited (h : s.inhibits c = true) (sl : Slot) (source : Source) (item : Option Tag) :
    s.fireRequest c sl source item =
      s.addRecord { kind := .inhibited, item := item, channel := some c, reason := some source.code } := by
  unfold Station.fireRequest
  rw [fireOutcome_of_inhibited h]

theorem fireRequest_of_running (hin : s.inhibits c = false) (hrun : (s.chan c).run.isSome = true) (sl : Slot)
    (source : Source) (item : Option Tag) : s.fireRequest c sl source item =
      s.addRecord { kind := .collision, item := item, channel := some c, reason := some source.code } := by
  unfold Station.fireRequest
  rw [fireOutcome_of_running hin hrun]

theorem forceFire_of_args (hc : channelArg s.port.args.r0 = some c) (hsl : slotArg s.port.args.r1 = some sl) :
    s.forceFire =
      { station := s.fireRequest c sl .force none
        code := (s.fireOutcome c).answerCode
        detail := (s.fireOutcome c).detail c } := by
  unfold Station.forceFire
  rw [hc, hsl]

theorem forceFire_of_out (h : 3 < s.port.args.r0.toNat ∨ 1 < s.port.args.r1.toNat) :
    s.forceFire = s.answer .refusedArg := by
  unfold Station.forceFire
  rcases h with h | h
  · rw [channelArg_out h]
  · rw [slotArg_out h]
    cases channelArg s.port.args.r0 <;> rfl

/-- FORCE_FIRE is a fire request, answered by its outcome. -/
theorem forceFireCommand_of_args (hc : channelArg s.port.args.r0 = some c) (hsl : slotArg s.port.args.r1 = some sl) :
    s.forceFireCommand =
      { (s.commandTaken 8).fireRequest c sl .force none with
        port := s.port.answered 8 (s.fireOutcome c).answerCode ((s.fireOutcome c).detail c) } := by
  obtain ⟨ch, ev, hframe⟩ := (s.commandTaken 8).fireRequest_frame c sl .force none
  have hbody := forceFire_of_args (s := s.commandTaken 8) hc hsl
  rw [hframe] at hbody ⊢
  exact runCommand_of hbody

/-! ## COMMIT_FORM (R146) -/

theorem commitForm_of_args (hc : channelArg s.port.args.r0 = some c) (hsl : slotArg s.port.args.r1 = some sl) :
    s.commitForm =
      { station := s.setCommit c sl, code := .done, detail := if ((s.chan c).slot sl).pending then 1 else 0 } := by
  unfold Station.commitForm
  rw [hc, hsl]

theorem commitForm_of_out (h : 3 < s.port.args.r0.toNat ∨ 1 < s.port.args.r1.toNat) :
    s.commitForm = s.answer .refusedArg := by
  unfold Station.commitForm
  rcases h with h | h
  · rw [channelArg_out h]
  · rw [slotArg_out h]
    cases channelArg s.port.args.r0 <;> rfl

/-! ## The end of a sequence (R155, R156) -/

theorem endSequence_of_no_chain (h : s.ctl.state = .halted ∨ (s.settings.channels.get c).chained = false) (r : Run) :
    s.endSequence c r = s.setRun c none := by
  show (if s.ctl.state = .halted then _ else if (s.settings.channels.get c).chained then _ else _) = _
  rcases h with h | h
  · rw [if_pos h]
  · rw [h, if_neg Bool.false_ne_true, ite_self]

theorem endSequence_of_chain (hst : s.ctl.state ≠ .halted) (hch : (s.settings.channels.get c).chained = true) (r : Run) :
    s.endSequence c r =
      (s.setRun c none).fireRequest (s.settings.channels.get c).chainChannel (s.settings.channels.get c).chainSlot
        .chain r.item :=
  (if_neg hst).trans (if_pos hch)

/-! ## Expiries (R150 to R154) -/

/-- What becomes of a channel's sequence in phase `p`; one in another phase, and an IDLE channel, stay as they are. -/
def whenInPhase (p : Phase) (c : Fin 4) (act : Run → Station → Station) (s : Station) : Station :=
  match (s.chan c).run with
  | none => s
  | some r => if r.phase = p then act r s else s

theorem whenInPhase_of_phase {p : Phase} (hr : (s.chan c).run = some r) (hp : r.phase = p)
    (act : Run → Station → Station) : s.whenInPhase p c act = act r s := by
  unfold whenInPhase
  rw [hr]
  exact if_pos hp

theorem whenInPhase_of_other {p : Phase} (h : ∀ r, (s.chan c).run = some r → r.phase ≠ p)
    (act : Run → Station → Station) : s.whenInPhase p c act = s := by
  unfold whenInPhase
  cases hr : (s.chan c).run with
  | none => rfl
  | some r => exact if_neg (h r hr)

/-- The handling of a hold cap that expires in HOLD (R154). -/
def capHold (c : Fin 4) (r : Run) (s : Station) : Station :=
  if s.holds c then
    (s.addRecord { kind := .holdCap, item := r.item, channel := some c,
                   value := some (r.form.cap.toNat : Int) }).endSequence c r
  else s.endSequence c r

theorem delayExpires_eq (s : Station) (c : Fin 4) :
    s.delayExpires c = s.whenInPhase .delay c fun r t => t.setRun c (some r.enterHigh) := rfl

theorem lowExpires_eq (s : Station) (c : Fin 4) :
    s.lowExpires c = s.whenInPhase .low c fun r t => t.setRun c (some r.enterHigh) := rfl

theorem highExpires_eq (s : Station) (c : Fin 4) : s.highExpires c = s.whenInPhase .high c (Station.endOfHigh c) := rfl

theorem holdCapExpires_eq (s : Station) (c : Fin 4) : s.holdCapExpires c = s.whenInPhase .hold c (capHold c) := rfl

theorem releaseHold_eq (s : Station) (c : Fin 4) : s.releaseHold c = s.whenInPhase .hold c (Station.endSequence c) := rfl

theorem endOfHigh_of_more_pulses (hk : r.form.kind = .burst) (hn : r.pulses ≠ 0) : s.endOfHigh c r =
    s.setRun c (some { r with phase := .low, pulses := r.pulses - 1, left := r.form.low.toNat }) := by
  unfold Station.endOfHigh
  rw [hk]
  exact if_neg hn

theorem endOfHigh_of_held (hk : r.form.kind = .held) (hh : s.holds c = true) (hcap : r.form.cap ≠ 0) :
    s.endOfHigh c r = s.setRun c (some { r with phase := .hold, left := r.form.cap.toNat }) := by
  unfold Station.endOfHigh
  rw [hk]
  exact if_pos ⟨hh, hcap⟩

/-- The HIGH of SINGLE, the last of a BURST, and that of a HELD form that does not go on to HOLD end the sequence. -/
theorem endOfHigh_of_last (h : r.form.kind = .single ∨ r.form.kind = .burst ∧ r.pulses = 0 ∨
    r.form.kind = .held ∧ (s.holds c = false ∨ r.form.cap = 0)) : s.endOfHigh c r = s.endSequence c r := by
  unfold Station.endOfHigh
  rcases h with hk | ⟨hk, hn⟩ | ⟨hk, hend⟩ <;> rw [hk]
  · exact if_pos hn
  · refine if_neg fun ⟨hh, hcap⟩ => ?_
    rcases hend with hend | hend
    · rw [hend] at hh
      exact Bool.false_ne_true hh
    · exact hcap hend

theorem capHold_of_holds (h : s.holds c = true) (r : Run) : s.capHold c r =
    (s.addRecord { kind := .holdCap, item := r.item, channel := some c,
                   value := some (r.form.cap.toNat : Int) }).endSequence c r := if_pos h

theorem capHold_of_not_holds (h : s.holds c = false) (r : Run) : s.capHold c r = s.endSequence c r :=
  if_neg (by rw [h]; exact Bool.false_ne_true)

end Station

/-- Settles O43: the checks of R148 decide for FORCE_FIRE as for any source, and a load is the commit taken up and the
run record of the live form. -/
theorem forceFireLoadsAnIdleChannel : Obligations.ForceFireLoadsAnIdleChannel := by
  refine ⟨fun s c sl hc hsl => ?_, fun s hout => exec_of_effect ?_, fun s c sl source item code hcode => ?_,
    fun ch sl source item live hlive => ⟨?_, fun sl' => Channel.slot_load_other ch source item, ?_⟩⟩
  · have hfire := Station.forceFireCommand_of_args (s := s.toStation) (channelArg_of hc) (slotArg_of hsl)
    refine ⟨fun hin => exec_of_effect ?_, fun hin hrun => exec_of_effect ?_, fun hin hrun => exec_of_effect ?_⟩
    · rw [Station.fireOutcome_of_inhibited hin,
        Station.fireRequest_of_inhibited (s := s.toStation.commandTaken 8) hin] at hfire
      exact hfire
    · rw [Station.fireOutcome_of_running hin hrun,
        Station.fireRequest_of_running (s := s.toStation.commandTaken 8) hin hrun] at hfire
      exact hfire
    · rw [Station.fireOutcome_of_idle hin hrun,
        Station.fireRequest_of_idle (s := s.toStation.commandTaken 8) hin hrun] at hfire
      exact hfire
  · exact Station.runCommand_of_unchanged (Station.forceFire_of_out (s := s.toStation.commandTaken 8) hout)
  · obtain rfl : code = source.code := hcode
    exact ⟨fun hin => Station.fireRequest_of_inhibited hin sl source item,
      fun hin hrun => Station.fireRequest_of_running hin hrun sl source item,
      fun hin hrun => Station.fireRequest_of_idle hin hrun sl source item⟩
  · rw [Channel.slot_load_same, FormSlot.takeCommit_eq, hlive]
  · rw [Channel.run_load, FormSlot.takeCommit_eq, ← hlive, Form.startRun, Form.pulsesAfterFirst_eq]
    rfl

/-- Settles O45: an expiry in its phase reaches the end of the sequence, and the end follows the chain or not. -/
theorem sequencesEndAndChain : Obligations.SequencesEndAndChain := by
  rintro s c r _ hr rfl
  have high (hp : r.phase = .high) : s.toStation.highExpires c = s.toStation.endOfHigh c r :=
    (Station.highExpires_eq _ c).trans (Station.whenInPhase_of_phase hr hp _)
  have cap (hp : r.phase = .hold) : s.toStation.holdCapExpires c = s.toStation.capHold c r :=
    (Station.holdCapExpires_eq _ c).trans (Station.whenInPhase_of_phase hr hp _)
  refine ⟨fun hp hlast => ⟨fun hno => exec_of_effect ?_, fun hst hch => exec_of_effect ?_⟩,
    fun hp hno => exec_of_effect ?_, fun hp hh hst hch => exec_of_effect ?_, fun hp hh hst hch => exec_of_effect ?_⟩
  · exact ((high hp).trans (Station.endOfHigh_of_last hlast)).trans (Station.endSequence_of_no_chain hno r)
  · exact ((high hp).trans (Station.endOfHigh_of_last hlast)).trans (Station.endSequence_of_chain hst hch r)
  · cases hh : s.holds c
    · exact ((cap hp).trans (Station.capHold_of_not_holds hh r)).trans (Station.endSequence_of_no_chain hno r)
    · exact ((cap hp).trans (Station.capHold_of_holds hh r)).trans
        (Station.endSequence_of_no_chain (s := s.toStation.addRecord _) hno r)
  · exact ((cap hp).trans (Station.capHold_of_holds hh r)).trans
      (Station.endSequence_of_chain (s := s.toStation.addRecord _) hst hch r)
  · exact ((cap hp).trans (Station.capHold_of_not_holds hh r)).trans (Station.endSequence_of_chain hst hch r)

/-- Settles O44: each expiry acts on a sequence in its own phase alone. -/
theorem phasesFollowOneAnother : Obligations.PhasesFollowOneAnother := by
  refine fun s c => ⟨fun r hr => ⟨fun hp => exec_of_effect ?_, fun hp => exec_of_effect ?_,
    fun hp hk hn => exec_of_effect ?_, fun hp hk hh hcap => exec_of_effect ?_⟩,
    fun h => exec_of_effect_self ?_, fun h => exec_of_effect_self ?_, fun h => exec_of_effect_self ?_,
    fun h => exec_of_effect_self ?_⟩
  · exact (Station.delayExpires_eq _ c).trans (Station.whenInPhase_of_phase hr hp _)
  · exact (Station.lowExpires_eq _ c).trans (Station.whenInPhase_of_phase hr hp _)
  · exact ((Station.highExpires_eq _ c).trans (Station.whenInPhase_of_phase hr hp _)).trans
      (Station.endOfHigh_of_more_pulses hk hn)
  · exact ((Station.highExpires_eq _ c).trans (Station.whenInPhase_of_phase hr hp _)).trans
      (Station.endOfHigh_of_held hk hh hcap)
  · exact (Station.delayExpires_eq _ c).trans (Station.whenInPhase_of_other h _)
  · exact (Station.lowExpires_eq _ c).trans (Station.whenInPhase_of_other h _)
  · exact (Station.highExpires_eq _ c).trans (Station.whenInPhase_of_other h _)
  · exact (Station.holdCapExpires_eq _ c).trans (Station.whenInPhase_of_other h _)

/-- Settles O47: the flag is set in the one slot, and the answer is read before that. -/
theorem commitFormSetsTheFlag : Obligations.CommitFormSetsTheFlag := by
  refine ⟨fun s c sl hc hsl => ?_, fun s hout => exec_of_effect ?_⟩
  · have hbody := Station.commitForm_of_args (s := s.toStation.commandTaken 9) (channelArg_of hc) (slotArg_of hsl)
    have hset := Station.chan_setChan_same s.toStation c
      ((s.chan c).setSlot sl { (s.chan c).slot sl with pending := true })
    refine ⟨_, exec_of_effect (Station.runCommand_of hbody), rfl, fun d hd => ?_, ?_, ?_, fun sl' hsl' => ?_⟩
    · exact Station.chan_setChan_other s.toStation hd _
    · exact (congrArg Channel.run hset).trans (Channel.run_setSlot _ _ _)
    · exact (congrArg (Channel.slot · sl) hset).trans (Channel.slot_setSlot_same _ _ _)
    · exact (congrArg (Channel.slot · sl') hset).trans (Channel.slot_setSlot_other _ hsl' _)
  · exact Station.runCommand_of_unchanged (Station.commitForm_of_out (s := s.toStation.commandTaken 9) hout)

/-- Settles O48: the pin is the output's state through the polarity, and a reset leaves every output inactive. -/
theorem outputsFollowPhaseAndPolarity : Obligations.OutputsFollowPhaseAndPolarity := by
  refine ⟨fun s c => ⟨fun h => ?_, fun h => ?_⟩, Station.resetAt_outputPin⟩
  · rw [Station.outputPin_of_activeHigh h, Channel.active_iff]
  · rw [Station.outputPin_of_activeLow h, Bool.not_eq_false', Channel.active_iff]

end Sys2Proof.Machine

/-! PROOF. Auxiliary inputs: which channels a change of conditions concerns, what the handling of one of them does to the
others, and what all of them in the chosen order leave. -/

namespace Sys2Proof.Machine

/-- A request has loaded a channel that was IDLE. -/
def Channel.LoadedTo (ch ch' : Channel) : Prop := ch.run = none ∧ ∃ sl source item, ch' = ch.load sl source item

namespace Station

variable {before s : Station} {c d : Fin 4} {r : Run} {waiting : List (Fin 4)}

/-! ## Conditions (R142) -/

/-- A channel has one role: where its input makes it hold, no level inhibits it. -/
theorem not_inhibits_of_holds (hset : s.settings = before.settings) (h : before.holds c = true) :
    s.inhibits c = false := by
  unfold Station.holds at h
  unfold Station.inhibits
  rw [Bool.and_eq_true, beq_iff_eq] at h
  rw [hset, h.1]
  rfl

theorem applyAux_conditions (before : Station) (waiting : List (Fin 4)) (d : Fin 4) (s : Station) (c : Fin 4) :
    (applyAux before waiting d s).inhibits c = s.inhibits c ∧ (applyAux before waiting d s).holds c = s.holds c := by
  obtain ⟨ch, ev, heq⟩ := applyAux_frame before waiting d s
  rw [heq]
  exact ⟨rfl, rfl⟩

/-! ## The channels that a change acts on -/

theorem auxActsOn_of_idle (h : (s.chan c).run = none) : auxActsOn before s c = false := by
  unfold Station.auxActsOn
  rw [h]

theorem auxActsOn_of_run (h : (s.chan c).run = some r) : auxActsOn before s c = true ↔
    before.inhibits c = false ∧ s.inhibits c = true ∨
      r.phase = .hold ∧ before.holds c = true ∧ s.holds c = false := by
  unfold Station.auxActsOn
  rw [h]
  simp [and_assoc]

theorem releasedForChain_iff : releasedForChain before s c = true ↔
    s.ctl.state ≠ .halted ∧ before.inhibits c = true ∧ s.inhibits c = false ∧
      ∃ d, auxActsOn before s d = true ∧ s.inhibits d = false ∧
        (s.settings.channels.get d).chained = true ∧ (s.settings.channels.get d).chainChannel = c := by
  simp [Station.releasedForChain, and_assoc]

theorem mem_auxConcerns : c ∈ auxConcerns before s ↔ auxActsOn before s c = true ∨ releasedForChain before s c = true := by
  simp [Station.auxConcerns]

theorem auxConcerns_nodup (before s : Station) : (auxConcerns before s).Nodup := (List.nodup_finRange 4).filter _

/-! ## The handling of one channel -/

theorem cutSequence_of_run (h : (s.chan c).run = some r) : s.cutSequence c =
    (s.setRun c none).addRecord
      { kind := .cut, item := r.item, channel := some c, reason := some r.phase.code } := by
  unfold Station.cutSequence
  rw [h]

theorem cutSequence_chan_other (h : c ≠ d) : (s.cutSequence d).chan c = s.chan c := by
  cases hr : (s.chan d).run with
  | none => unfold Station.cutSequence; rw [hr]
  | some r => rw [cutSequence_of_run hr]; exact chan_setChan_other s h _

theorem releaseHold_of_hold (hr : (s.chan c).run = some r) (hp : r.phase = .hold) :
    s.releaseHold c = s.endSequence c r := (s.releaseHold_eq c).trans (whenInPhase_of_phase hr hp _)

theorem releaseHoldAmong_nil (before : Station) (c : Fin 4) (s : Station) :
    releaseHoldAmong before [] c s = s.releaseHold c := if_neg List.not_mem_nil

theorem applyAux_of_not_acts (h : auxActsOn before s c = false) (waiting : List (Fin 4)) :
    applyAux before waiting c s = s := if_pos (by rw [h]; rfl)

theorem applyAux_of_inhibits (h : auxActsOn before s c = true) (hin : s.inhibits c = true) (waiting : List (Fin 4)) :
    applyAux before waiting c s = s.cutSequence c :=
  (if_neg (by rw [h]; exact Bool.false_ne_true)).trans (if_pos hin)

theorem applyAux_of_not_inhibits (h : auxActsOn before s c = true) (hin : s.inhibits c = false)
    (waiting : List (Fin 4)) : applyAux before waiting c s = releaseHoldAmong before waiting c s :=
  (if_neg (by rw [h]; exact Bool.false_ne_true)).trans (if_neg (by rw [hin]; exact Bool.false_ne_true))

/-! ## What a request and an end do to a channel -/

theorem fireRequest_chan_other (h : c ≠ d) (sl : Slot) (source : Source) (item : Option Tag) :
    (s.fireRequest d sl source item).chan c = s.chan c := by
  unfold Station.fireRequest
  cases s.fireOutcome d
  · rfl
  · rfl
  · exact chan_setChan_other s h _

theorem fireRequest_chan_same (s : Station) (c : Fin 4) (sl : Slot) (source : Source) (item : Option Tag) :
    (s.fireRequest c sl source item).chan c = s.chan c ∨
      s.inhibits c = false ∧ (s.chan c).LoadedTo ((s.fireRequest c sl source item).chan c) := by
  cases hin : s.inhibits c
  · cases hrun : (s.chan c).run with
    | none =>
      rw [fireRequest_of_idle hin hrun, chan_setChan_same]
      exact .inr ⟨rfl, hrun, sl, source, item, rfl⟩
    | some r =>
      rw [fireRequest_of_running hin (by rw [hrun]; rfl)]
      exact .inl rfl
  · rw [fireRequest_of_inhibited hin]
    exact .inl rfl

/-- The choice counter has no part in a fire request. -/
theorem fireRequest_ties (s : Station) (k : Nat) (c : Fin 4) (sl : Slot) (source : Source) (item : Option Tag) :
    ({ s with ties := k } : Station).fireRequest c sl source item = { s.fireRequest c sl source item with ties := k } := by
  have houtcome : ({ s with ties := k } : Station).fireOutcome c = s.fireOutcome c := rfl
  unfold Station.fireRequest
  rw [houtcome]
  cases s.fireOutcome c <;> rfl

theorem endSequence_cases (s : Station) (c : Fin 4) (r : Run) : s.endSequence c r = s.setRun c none ∨
    s.endSequence c r = (s.setRun c none).fireRequest (s.settings.channels.get c).chainChannel
      (s.settings.channels.get c).chainSlot .chain r.item := by
  by_cases hst : s.ctl.state = .halted
  · exact .inl (endSequence_of_no_chain (.inl hst) r)
  · cases hch : (s.settings.channels.get c).chained
    · exact .inl (endSequence_of_no_chain (.inr hch) r)
    · exact .inr (endSequence_of_chain hst hch r)

/-- The end of a sequence reaches another channel as its chain channel alone, which a chained request may load. -/
theorem endSequence_chan_other (h : c ≠ d) (r : Run) : (s.endSequence d r).chan c = s.chan c ∨
    (s.settings.channels.get d).chainChannel = c ∧ s.inhibits c = false ∧
      (s.chan c).LoadedTo ((s.endSequence d r).chan c) := by
  have hset : (s.setRun d none).chan c = s.chan c := chan_setChan_other s h _
  rcases s.endSequence_cases d r with heq | heq <;> rw [heq]
  · exact .inl hset
  · by_cases hx : (s.settings.channels.get d).chainChannel = c
    · have hfire := (s.setRun d none).fireRequest_chan_same c (s.settings.channels.get d).chainSlot .chain r.item
      rw [hset] at hfire
      rw [hx]
      exact hfire.imp_right fun hload => ⟨rfl, hload⟩
    · exact .inl ((fireRequest_chan_other (Ne.symm hx) _ _ _).trans hset)

theorem releaseHold_chan_other (h : c ≠ d) : (s.releaseHold d).chan c = s.chan c ∨
    (s.settings.channels.get d).chainChannel = c ∧ s.inhibits c = false ∧
      (s.chan c).LoadedTo ((s.releaseHold d).chan c) := by
  unfold Station.releaseHold
  split
  · exact .inl rfl
  · split
    · exact endSequence_chan_other h _
    · exact .inl rfl

/-- The handling of another channel leaves OUTc, or loads it where it is IDLE. Once OUTc has seen the change, its inhibit
condition keeps it IDLE (R161). -/
theorem applyAux_chan_other (before : Station) (waiting : List (Fin 4)) (h : c ≠ d) (s : Station) :
    (applyAux before waiting d s).chan c = s.chan c ∨
      (c ∉ waiting → s.inhibits c = false) ∧ (s.chan c).LoadedTo ((applyAux before waiting d s).chan c) := by
  unfold Station.applyAux
  split
  · exact .inl rfl
  split
  · exact .inl (cutSequence_chan_other h)
  unfold Station.releaseHoldAmong
  split
  · next hwaits =>
    refine (releaseHold_chan_other (s := { s with pins.aux := before.pins.aux }) h).imp_right ?_
    exact fun ⟨hx, _, hload⟩ => ⟨fun hnot => absurd (hx ▸ hwaits) hnot, hload⟩
  · exact (releaseHold_chan_other h).imp_right fun ⟨_, hin, hload⟩ => ⟨fun _ => hin, hload⟩

/-- A running sequence is left to its own channel's handling. -/
theorem applyAux_run_other (before : Station) (waiting : List (Fin 4)) (h : c ≠ d) (hr : (s.chan c).run = some r) :
    ((applyAux before waiting d s).chan c).run = some r := by
  rcases applyAux_chan_other before waiting h s with heq | ⟨_, hidle, _⟩
  · rw [heq, hr]
  · rw [hr] at hidle
    cases hidle

/-! ## Channels that are not in HOLD -/

/-- No sequence of OUTc is in HOLD. -/
def NotInHold (s : Station) (c : Fin 4) : Prop := ∀ r, (s.chan c).run = some r → r.phase ≠ .hold

theorem notInHold_of_loadedTo {ch : Channel} (h : ch.LoadedTo (s.chan c)) : s.NotInHold c := by
  obtain ⟨_, sl, source, item, heq⟩ := h
  intro r hr
  rw [heq] at hr
  exact Channel.load_phase_ne_hold _ _ _ _ hr

theorem NotInHold.applyAux_other (hs : s.NotInHold c) (h : c ≠ d) :
    (applyAux before waiting d s).NotInHold c := by
  rcases applyAux_chan_other before waiting h s with heq | ⟨_, hload⟩
  · intro r hr
    rw [heq] at hr
    exact hs r hr
  · exact notInHold_of_loadedTo hload

theorem endSequence_notInHold (s : Station) (c : Fin 4) (r : Run) : (s.endSequence c r).NotInHold c := by
  have hidle : ((s.setRun c none).chan c).run = none := congrArg Channel.run (chan_setChan_same s c _)
  have hset : (s.setRun c none).NotInHold c := by
    intro r hr
    rw [hidle] at hr
    cases hr
  rcases s.endSequence_cases c r with heq | heq <;> rw [heq]
  · exact hset
  · by_cases hx : c = (s.settings.channels.get c).chainChannel
    · rw [← hx]
      rcases (s.setRun c none).fireRequest_chan_same c (s.settings.channels.get c).chainSlot .chain r.item with
        hkept | ⟨_, hload⟩
      · intro r hr
        rw [hkept] at hr
        exact hset r hr
      · exact notInHold_of_loadedTo hload
    · intro r hr
      rw [fireRequest_chan_other hx] at hr
      exact hset r hr

theorem releaseHoldAmong_notInHold (before : Station) (waiting : List (Fin 4)) (hr : (s.chan c).run = some r)
    (hp : r.phase = .hold) : (releaseHoldAmong before waiting c s).NotInHold c := by
  unfold Station.releaseHoldAmong
  split
  · have heq := releaseHold_of_hold (s := { s with pins.aux := before.pins.aux }) hr hp
    rw [heq]
    exact endSequence_notInHold { s with pins.aux := before.pins.aux } c r
  · rw [releaseHold_of_hold hr hp]
    exact s.endSequence_notInHold c r

/-! ## The handling of all channels, in any order -/

/-- What the handling of the other channels keeps, all of them in turn keep. -/
theorem applyConditions_keeps {P : Station → Prop}
    (hother : ∀ d waiting t, c ≠ d → c ∉ waiting → P t → P (applyAux before waiting d t)) {cs : List (Fin 4)}
    (hc : c ∉ cs) (hs : P s) : P (applyConditions before cs s) := by
  induction cs generalizing s with
  | nil => exact hs
  | cons d ds ih =>
    obtain ⟨hne, hds⟩ := not_or.mp (mt List.mem_cons.mpr hc)
    exact ih hds (hother d ds s hne hds hs)

/-- A channel waits while others are handled before it, is handled once, and then stays as the others leave it. -/
theorem applyConditions_handles {Waits Done : Station → Prop}
    (hwait : ∀ d waiting t, c ≠ d → Waits t → Waits (applyAux before waiting d t))
    (hself : ∀ waiting t, Waits t → Done (applyAux before waiting c t))
    (hdone : ∀ d waiting t, c ≠ d → c ∉ waiting → Done t → Done (applyAux before waiting d t)) {cs : List (Fin 4)}
    (hc : c ∈ cs) (hcs : cs.Nodup) (hs : Waits s) : Done (applyConditions before cs s) := by
  induction cs generalizing s with
  | nil => cases hc
  | cons d ds ih =>
    obtain ⟨hd, hds⟩ := List.nodup_cons.mp hcs
    by_cases h : c = d
    · subst h
      exact applyConditions_keeps (cs := ds) hdone hd (hself ds s hs)
    · exact ih ((List.mem_cons.mp hc).resolve_left h) hds (hwait d ds s h hs)

/-- The same of a change of conditions that acts on the channel. -/
theorem conditionsChanged_handles {Waits Done : Station → Prop}
    (hwait : ∀ d waiting t, c ≠ d → Waits t → Waits (applyAux before waiting d t))
    (hself : ∀ waiting t, Waits t → Done (applyAux before waiting c t))
    (hdone : ∀ d waiting t, c ≠ d → c ∉ waiting → Done t → Done (applyAux before waiting d t))
    (hacts : auxActsOn before s c = true) (hs : ∀ k, Waits { s with ties := k }) :
    Done (conditionsChanged before s) := by
  obtain ⟨k, hk⟩ := s.noteChoice_frame (auxConcerns before s)
  have hperm := s.chosenOrder_perm (fun c : Fin 4 => c.val) (auxConcerns before s)
  unfold Station.conditionsChanged
  rw [hk]
  exact applyConditions_handles hwait hself hdone (hperm.mem_iff.mpr (mem_auxConcerns.mpr (.inl hacts)))
    (hperm.nodup_iff.mpr (auxConcerns_nodup before s)) (hs k)

/-- A sequence whose inhibit condition starts to hold is gone after the change, and no chained request replaces it. -/
theorem conditionsChanged_cuts (hr : (s.chan c).run = some r) (hbefore : before.inhibits c = false)
    (hin : s.inhibits c = true) : ((conditionsChanged before s).chan c).run = none := by
  refine (conditionsChanged_handles (c := c) (Waits := fun t => (t.chan c).run = some r ∧ t.inhibits c = true)
    (Done := fun t => (t.chan c).run = none ∧ t.inhibits c = true) ?_ ?_ ?_
    ((auxActsOn_of_run hr).mpr (.inl ⟨hbefore, hin⟩)) fun k => ⟨hr, hin⟩).1
  · rintro d waiting t h ⟨hrt, hint⟩
    exact ⟨applyAux_run_other before waiting h hrt, (applyAux_conditions before waiting d t c).1.trans hint⟩
  · rintro waiting t ⟨hrt, hint⟩
    refine ⟨?_, (applyAux_conditions before waiting c t c).1.trans hint⟩
    rw [applyAux_of_inhibits ((auxActsOn_of_run hrt).mpr (.inl ⟨hbefore, hint⟩)) hint, cutSequence_of_run hrt]
    exact congrArg Channel.run (chan_setChan_same t c _)
  · rintro d waiting t h hnot ⟨hidle, hint⟩
    refine ⟨?_, (applyAux_conditions before waiting d t c).1.trans hint⟩
    rcases applyAux_chan_other before waiting h t with heq | ⟨hfree, _⟩
    · rw [heq, hidle]
    · rw [hfree hnot] at hint
      cases hint

/-- A HOLD whose hold condition ceases has ended after the change; a sequence that a chained request then starts begins
in DELAY or HIGH. -/
theorem conditionsChanged_releases (hset : s.settings = before.settings) (hr : (s.chan c).run = some r)
    (hp : r.phase = .hold) (hbefore : before.holds c = true) (hh : s.holds c = false) :
    (conditionsChanged before s).NotInHold c := by
  refine conditionsChanged_handles (c := c)
    (Waits := fun t => (t.chan c).run = some r ∧ t.inhibits c = false ∧ t.holds c = false)
    (Done := fun t => t.NotInHold c) ?_ ?_ (fun d waiting t h _ ht => ht.applyAux_other h)
    ((auxActsOn_of_run hr).mpr (.inr ⟨hp, hbefore, hh⟩)) fun k => ⟨hr, not_inhibits_of_holds hset hbefore, hh⟩
  · rintro d waiting t h ⟨hrt, hint, hht⟩
    have hcond := applyAux_conditions before waiting d t c
    exact ⟨applyAux_run_other before waiting h hrt, hcond.1.trans hint, hcond.2.trans hht⟩
  · rintro waiting t ⟨hrt, hint, hht⟩
    rw [applyAux_of_not_inhibits ((auxActsOn_of_run hrt).mpr (.inr ⟨hp, hbefore, hht⟩)) hint]
    exact releaseHoldAmong_notInHold before waiting hrt hp

/-! ## A change that concerns no channel, one, or two -/

theorem conditionsChanged_of_none (h : ∀ c, auxActsOn before s c = false) : conditionsChanged before s = s := by
  have hnil : auxConcerns before s = [] := by
    refine List.eq_nil_iff_forall_not_mem.mpr fun c hc => ?_
    rcases mem_auxConcerns.mp hc with hacts | hrel
    · rw [h c] at hacts
      cases hacts
    · obtain ⟨_, _, _, d, hacts, _⟩ := releasedForChain_iff.mp hrel
      rw [h d] at hacts
      cases hacts
  unfold Station.conditionsChanged
  rw [hnil]
  rfl

theorem conditionsChanged_of_one (h : ∀ d, d ∈ auxConcerns before s ↔ d = c) :
    conditionsChanged before s = applyAux before [] c s := by
  have hone : auxConcerns before s = [c] := List.perm_singleton.mp
    ((List.perm_ext_iff_of_nodup (auxConcerns_nodup before s) (List.nodup_singleton c)).mpr fun d => by
      rw [h, List.mem_singleton])
  unfold Station.conditionsChanged
  rw [hone]
  rfl

/-- Two channels are handled in the one order or in the other (log 5). -/
theorem conditionsChanged_of_two (hne : c ≠ d) (h : ∀ x, x ∈ auxConcerns before s ↔ x = c ∨ x = d) :
    ∃ k, conditionsChanged before s = applyAux before [] d (applyAux before [d] c { s with ties := k }) ∨
      conditionsChanged before s = applyAux before [] c (applyAux before [c] d { s with ties := k }) := by
  have htwo : (auxConcerns before s).Perm [c, d] :=
    (List.perm_ext_iff_of_nodup (auxConcerns_nodup before s) (by simp [hne])).mpr fun x => by
      rw [h, List.mem_pair]
  obtain ⟨k, hk⟩ := s.noteChoice_frame (auxConcerns before s)
  refine ⟨k, ?_⟩
  unfold Station.conditionsChanged
  rw [hk]
  rcases List.perm_pair.mp ((s.chosenOrder_perm (fun c : Fin 4 => c.val) (auxConcerns before s)).trans htwo) with
    horder | horder <;> rw [horder]
  · exact .inl rfl
  · exact .inr rfl

/-! ## One running sequence -/

/-- Where OUTc alone runs and the change acts on it, it is concerned, and else at most the chain channel that the change
releases. -/
theorem mem_auxConcerns_of_alone (halone : ∀ d, d ≠ c → (s.chan d).run = none) (hacts : auxActsOn before s c = true) :
    d ∈ auxConcerns before s ↔ d = c ∨
      s.ctl.state ≠ .halted ∧ before.inhibits d = true ∧ s.inhibits d = false ∧ s.inhibits c = false ∧
        (s.settings.channels.get c).chained = true ∧ (s.settings.channels.get c).chainChannel = d := by
  have honly (x : Fin 4) : auxActsOn before s x = true ↔ x = c := by
    refine ⟨fun hx => by_contra fun hne => ?_, fun hx => hx ▸ hacts⟩
    rw [auxActsOn_of_idle (halone x hne)] at hx
    cases hx
  rw [mem_auxConcerns, releasedForChain_iff, honly]
  simp only [honly, exists_eq_left]

theorem conditionsChanged_of_alone (halone : ∀ d, d ≠ c → (s.chan d).run = none) (hacts : auxActsOn before s c = true)
    (hfree : s.ctl.state ≠ .halted → s.inhibits c = false → (s.settings.channels.get c).chained = true →
      before.inhibits (s.settings.channels.get c).chainChannel = true →
      s.inhibits (s.settings.channels.get c).chainChannel = true) :
    conditionsChanged before s = applyAux before [] c s := by
  refine conditionsChanged_of_one fun d => (mem_auxConcerns_of_alone halone hacts).trans (or_iff_left ?_)
  rintro ⟨hst, hbefore, hin, hc, hch, rfl⟩
  rw [hfree hst hc hch hbefore] at hin
  cases hin

/-- The only running sequence is cut (R157). -/
theorem conditionsChanged_of_alone_cut (halone : ∀ d, d ≠ c → (s.chan d).run = none) (hr : (s.chan c).run = some r)
    (hbefore : before.inhibits c = false) (hin : s.inhibits c = true) : conditionsChanged before s =
      (s.setRun c none).addRecord
        { kind := .cut, item := r.item, channel := some c, reason := some r.phase.code } := by
  have hacts : auxActsOn before s c = true := (auxActsOn_of_run hr).mpr (.inl ⟨hbefore, hin⟩)
  rw [conditionsChanged_of_alone halone hacts fun _ hc => absurd hin (Bool.eq_false_iff.mp hc),
    applyAux_of_inhibits hacts hin, cutSequence_of_run hr]

section

/-! ## The only running sequence is released from HOLD (R154, R156, R161) -/

variable (hset : s.settings = before.settings) (halone : ∀ d, d ≠ c → (s.chan d).run = none)
  (hr : (s.chan c).run = some r) (hp : r.phase = .hold) (hbefore : before.holds c = true) (hh : s.holds c = false)

include hset halone hr hp hbefore hh

theorem conditionsChanged_of_alone_release
    (hfree : s.ctl.state ≠ .halted → (s.settings.channels.get c).chained = true →
      before.inhibits (s.settings.channels.get c).chainChannel = true →
      s.inhibits (s.settings.channels.get c).chainChannel = true) :
    conditionsChanged before s = s.endSequence c r := by
  have hacts : auxActsOn before s c = true := (auxActsOn_of_run hr).mpr (.inr ⟨hp, hbefore, hh⟩)
  rw [conditionsChanged_of_alone halone hacts fun hst _ => hfree hst,
    applyAux_of_not_inhibits hacts (not_inhibits_of_holds hset hbefore), releaseHoldAmong_nil, releaseHold_of_hold hr hp]

/-- The release of the chain channel's inhibit condition comes before the chained request or after it. -/
theorem conditionsChanged_of_alone_both (hst : s.ctl.state ≠ .halted)
    (hch : (s.settings.channels.get c).chained = true) (hd : d = (s.settings.channels.get c).chainChannel)
    (hin : before.inhibits d = true) (hfree : s.inhibits d = false) : ∃ k,
      conditionsChanged before s =
          { (s.setRun c none).fireRequest d (s.settings.channels.get c).chainSlot .chain r.item with ties := k } ∨
        conditionsChanged before s =
          { (s.setRun c none).addRecord
              { kind := .inhibited, item := r.item, channel := some d, reason := some 2 } with ties := k } := by
  have hacts : auxActsOn before s c = true := (auxActsOn_of_run hr).mpr (.inr ⟨hp, hbefore, hh⟩)
  have hcfree : s.inhibits c = false := not_inhibits_of_holds hset hbefore
  have hne : d ≠ c := by
    rintro rfl
    rw [not_inhibits_of_holds rfl hbefore] at hin
    cases hin
  obtain ⟨k, horder⟩ := conditionsChanged_of_two hne.symm fun x =>
    (mem_auxConcerns_of_alone halone hacts).trans <| or_congr_right
      ⟨fun ⟨_, _, _, _, _, hx⟩ => (hd.trans hx).symm, fun hx => hx ▸ ⟨hst, hin, hfree, hcfree, hch, hd.symm⟩⟩
  refine ⟨k, horder.symm.imp (fun heq => heq.trans ?_) fun heq => heq.trans ?_⟩
  · have hidle : auxActsOn before { s with ties := k } d = false := auxActsOn_of_idle (halone d hne)
    rw [applyAux_of_not_acts hidle, applyAux_of_not_inhibits (s := { s with ties := k }) hacts hcfree,
      releaseHoldAmong_nil, releaseHold_of_hold (s := { s with ties := k }) hr hp,
      endSequence_of_chain (s := { s with ties := k }) hst hch, hd]
    exact fireRequest_ties (s.setRun c none) k _ _ _ _
  · have hwaits : releaseHoldAmong before [d] c { s with ties := k } =
        { (s.setRun c none).addRecord
            { kind := .inhibited, item := r.item, channel := some d, reason := some 2 } with ties := k } := by
      have hend := endSequence_of_chain (s := { s with ties := k, pins.aux := before.pins.aux }) hst hch r
      have hview : (({ s with ties := k, pins.aux := before.pins.aux } : Station).setRun c none).inhibits d = true := by
        rw [← hin]
        unfold Station.inhibits
        rw [← hset]
        rfl
      rw [← hd, fireRequest_of_inhibited hview] at hend
      unfold Station.releaseHoldAmong
      rw [if_pos (List.mem_singleton.mpr hd.symm),
        releaseHold_of_hold (s := { s with ties := k, pins.aux := before.pins.aux }) hr hp, hend]
      rfl
    rw [applyAux_of_not_inhibits (s := { s with ties := k }) hacts hcfree, hwaits]
    refine applyAux_of_not_acts (auxActsOn_of_idle ?_) []
    exact (congrArg Channel.run (chan_setChan_other s hne _)).trans (halone d hne)

end

/-- The station once an auxiliary input has a level, before any channel has seen the change. -/
def withAux (n : Fin 4) (level : Bool) (s : Station) : Station :=
  { s with pins.aux := s.pins.aux.set n.val level n.isLt }

theorem withAux_settings (n : Fin 4) (level : Bool) (s : Station) : (s.withAux n level).settings = s.settings := rfl

theorem auxRead_eq (n : Fin 4) (level : Bool) (s : Station) :
    s.auxRead n level = conditionsChanged s (s.withAux n level) := rfl

end Station

/-- Settles O46: after the change of the level each channel is handled once, in any order. Where the change acts on no
sequence no channel is concerned, and where one sequence runs, its channel and the chain channel that is released. -/
theorem auxiliaryInputsCutAndRelease : Obligations.AuxiliaryInputsCutAndRelease := by
  rintro s n level _ rfl
  have hread (t : Station) (h : Station.conditionsChanged s.toStation (s.toStation.withAux n level) = t) :
      exec (.auxInputChange n level) s = .next { s with toStation := t } :=
    exec_of_effect ((s.toStation.auxRead_eq n level).trans h)
  have hset := s.toStation.withAux_settings n level
  refine ⟨?_, fun h => hread _ ?_, fun c r hr halone =>
    ⟨fun hin hain => hread _ ?_, fun hp hh hah hno => hread _ ?_, ?_⟩⟩
  · obtain ⟨ch, ev, k, heq⟩ := Station.conditionsChanged_frame s.toStation (s.toStation.withAux n level)
    refine ⟨_, hread _ heq, rfl, rfl, rfl, rfl, rfl, rfl, rfl, rfl, rfl, rfl, rfl, rfl, fun c r hr => ⟨?_, ?_⟩⟩
    · intro hin hain
      have hcut := Station.conditionsChanged_cuts (s := s.toStation.withAux n level) hr hin hain
      rw [heq] at hcut
      exact hcut
    · intro hp hh hah
      have hrelease := Station.conditionsChanged_releases hset hr hp hh hah
      rw [heq] at hrelease
      exact hrelease
  · refine Station.conditionsChanged_of_none fun c => ?_
    cases hr : (s.chan c).run with
    | none => exact Station.auxActsOn_of_idle hr
    | some r =>
      obtain ⟨hcut, hrelease⟩ := h c r hr
      refine Bool.eq_false_iff.mpr fun hacts => ?_
      rcases (Station.auxActsOn_of_run (s := s.toStation.withAux n level) hr).mp hacts with
        ⟨hin, hain⟩ | ⟨hp, hh, hah⟩
      · exact hcut.elim (Bool.eq_false_iff.mp hin) (Bool.eq_false_iff.mp · hain)
      · exact (hrelease hp).elim (Bool.eq_false_iff.mp · hh) (Bool.eq_false_iff.mp hah)
  · exact Station.conditionsChanged_of_alone_cut (s := s.toStation.withAux n level) halone hr hin hain
  · have hend := Station.endSequence_of_no_chain (s := s.toStation.withAux n level) hno r
    refine (Station.conditionsChanged_of_alone_release hset halone hr hp hh hah fun hst hch _ => ?_).trans hend
    exact (hno.elim hst (Bool.eq_false_iff.mp · hch)).elim
  · rintro hp hh hah hch hst d _ hd rfl
    refine ⟨fun hsame => hread _ ?_, fun hin hfree => ?_⟩
    · subst hd
      have hend := Station.endSequence_of_chain (s := s.toStation.withAux n level) hst hch r
      exact (Station.conditionsChanged_of_alone_release hset halone hr hp hh hah fun _ _ => hsame.symm.trans).trans hend
    · obtain ⟨k, hk⟩ := Station.conditionsChanged_of_alone_both hset halone hr hp hh hah hst hch hd hin hfree
      exact ⟨k, hk.imp (hread _) (hread _)⟩

end Sys2Proof.Machine

/-! PROOF. The words of the service port by their fields: the records of the five collections as sums, and STATUS, POSITION
and FILL by the bits of each field. -/

namespace Sys2Proof.Machine

/-! ## Codes -/

theorem EventKind.code_bounds (k : EventKind) : 1 ≤ k.code.toNat ∧ k.code.toNat ≤ 29 := by
  cases k <;> decide

theorem channelBits_toNat (c : Fin 4) : (channelBits c).toNat = c.val := rfl

/-! ## Records as sums of their fields (R183, R184) -/

theorem Item.record_words (i : Item) :
    i.record.r0.toNat = 2 ^ 31 + 2 ^ 8 * i.tag.origin.toNat + i.tag.seq.toNat ∧
    i.record.r1.toNat = i.sighting.toNat ∧
    i.record.r2.toNat = i.lane.toNat + 2 ^ 4 * i.cls.toNat + 2 ^ 8 * i.verdict.code.toNat +
      (2 ^ 15 * i.source.isSome.toNat + 2 ^ 16 * (i.source.getD 0).toNat) := by
  simp only [Item.record, toNat_append_add, Tag.bits_toNat, BitVec.toNat_ofBool, BitVec.toNat_ofNat]
  omega

theorem Entry.record_words (e : Entry) :
    e.record.r0.toNat = 2 ^ 31 + e.fire.toNat ∧
    e.record.r1.toNat = 2 ^ 16 * e.template.val + 2 ^ 8 * e.item.origin.toNat + e.item.seq.toNat ∧
    e.record.r2.toNat =
      e.claim.code.toNat + 2 ^ 8 * e.claim.seq.isSome.toNat + 2 ^ 16 * (e.claim.seq.getD 0).toNat := by
  simp only [Entry.record, toNat_append_add, Tag.bits_toNat, BitVec.toNat_ofBool, BitVec.toNat_ofNat,
    BitVec.toNat_ofFin]
  omega

theorem Claim.record_words (c : Claim) :
    c.record.r0.toNat = 2 ^ 31 + 2 ^ 16 * c.group.toNat + 2 ^ 8 * c.tag.origin.toNat + c.tag.seq.toNat ∧
    c.record.r1.toNat = c.start.toNat ∧ c.record.r2.toNat = c.length.toNat ∧
    c.record.r3.toNat = (c.start.toNat + c.length.toNat) % 2 ^ 24 := by
  simp only [Claim.record, toNat_append_add, Tag.bits_toNat, BitVec.toNat_ofNat, BitVec.toNat_add,
    BitVec.toNat_setWidth]
  omega

theorem TxEntry.record_r0 (e : TxEntry) (h : e.attempts < 4) :
    e.record.r0.toNat = 2 ^ 31 + 2 ^ 30 * e.inFlight.toNat + 2 ^ 24 * e.payload.kind.code.toNat +
      2 ^ 20 * e.attempts + 2 ^ 16 * e.origin.code.toNat := by
  simp only [TxEntry.record, toNat_append_add, BitVec.toNat_ofBool, BitVec.toNat_ofNat]
  omega

theorem txRecord1_toNat (p : Payload) :
    (txRecord1 p).toNat = match p with
      | .sight q _ lane cls => q.toNat + 2 ^ 8 * lane.toNat + 2 ^ 12 * cls.toNat
      | .verdict item v => 2 ^ 8 * item.origin.toNat + item.seq.toNat + 2 ^ 16 * v.toNat
      | .retire item => 2 ^ 8 * item.origin.toNat + item.seq.toNat
      | .yield q => q.toNat
      | .claim q group _ _ => q.toNat + 2 ^ 8 * group.toNat
      | .mark => 0 := by
  cases p with
  | mark => rfl
  | _ =>
    simp only [txRecord1, toNat_append_add, Tag.bits_toNat, BitVec.toNat_ofNat, BitVec.toNat_setWidth]
    omega

theorem EventRecord.record_words (e : EventRecord) :
    e.record.r0.toNat = 2 ^ 31 + 2 ^ 30 * e.lostAfter.toNat + 2 ^ 24 * e.fields.kind.code.toNat + e.pos.toNat ∧
    e.record.r1.toNat =
      (2 ^ 31 * e.fields.item.isSome.toNat + ((e.fields.item.map Tag.bits).getD 0).toNat) +
        (2 ^ 30 * e.fields.template.isSome.toNat + 2 ^ 16 * (e.fields.template.getD 0).val) +
        (2 ^ 29 * e.fields.channel.isSome.toNat + 2 ^ 20 * (e.fields.channel.getD 0).val) +
        2 ^ 28 * e.fields.station.isSome.toNat + 2 ^ 27 * e.fields.claim.isSome.toNat +
        2 ^ 26 * e.fields.value.isSome.toNat + 2 ^ 25 * e.fields.reason.isSome.toNat ∧
    e.record.r2.toNat =
      ((e.fields.claim.map Tag.bits).getD 0).toNat + 2 ^ 16 * (e.fields.station.getD 0).toNat +
        2 ^ 24 * (e.fields.reason.getD 0).toNat := by
  simp only [EventRecord.record, toNat_append_add, channelBits_toNat, BitVec.toNat_ofBool, BitVec.toNat_ofNat,
    BitVec.toNat_ofFin]
  omega

/-! ## A field of a word -/

theorem extractLsb'_of_toNat {x : Word} {k w : Nat} {y : BitVec w} (h : x.toNat / 2 ^ k % 2 ^ w = y.toNat) :
    x.extractLsb' k w = y := by
  apply BitVec.eq_of_toNat_eq
  rw [BitVec.extractLsb'_toNat, Nat.shiftRight_eq_div_pow, h]

theorem getLsbD_of_toNat {x : Word} {k : Nat} {b : Bool} (h : x.toNat / 2 ^ k % 2 = b.toNat) : x.getLsbD k = b := by
  rw [BitVec.getLsbD, Nat.testBit_eq_decide_div_mod_eq, h]
  cases b <;> rfl

/-- Bits that no field takes are 0, field by field. -/
theorem append_and_eq_zero {v w : Nat} {a m : BitVec v} {b n : BitVec w} (ha : a &&& m = 0) (hb : b &&& n = 0) :
    (a ++ b) &&& (m ++ n) = 0 := by
  rw [BitVec.and_append, ha, hb]
  exact BitVec.zero_append_zero

namespace Station

variable (s : Station)

/-- The resume state as STATUS shows it, 7 for none (R179). -/
def resumeField : BitVec 3 :=
  match s.ctl.resume with
  | none => 7#3
  | some r => BitVec.ofNat 3 r.toState.number

theorem statusWord_eq : s.statusWord =
    (0#7 ++ BitVec.ofBool s.attn ++ 0#2 ++ BitVec.ofNat 6 s.events.length ++ 0#5 ++ s.port.access.code ++ 0#1 ++
      s.resumeField ++ 0#1 ++ BitVec.ofNat 3 s.ctl.state.number : BitVec 32) := rfl

theorem statusWord_toNat (h : s.events.length ≤ 32) : s.statusWord.toNat =
    2 ^ 24 * s.attn.toNat + 2 ^ 16 * s.events.length + 2 ^ 8 * s.port.access.code.toNat +
      2 ^ 4 * s.resumeField.toNat + (BitVec.ofNat 3 s.ctl.state.number).toNat := by
  simp only [statusWord_eq, toNat_append_add, BitVec.toNat_ofBool, BitVec.toNat_ofNat]
  omega

theorem positionWord_toNat : s.positionWord.toNat = 2 ^ 24 * s.pos.dir.bit.toNat + s.pos.count.toNat := by
  simp only [positionWord, toNat_append_add, BitVec.toNat_ofNat]
  omega

theorem fillWord_toNat (h : s.WithinCapacities) : s.fillWord.toNat =
    2 ^ 24 * s.events.length + 2 ^ 19 * s.link.txq.length + 2 ^ 13 * s.claims.length + 2 ^ 6 * s.agenda.length +
      s.track.length := by
  obtain ⟨htrack, hagenda, hclaims, htxq, hevents⟩ := h
  norm_num [Config.trackCapacity, Config.agendaCapacity, Config.claimsCapacity, Config.txqCapacity,
    Config.eventCapacity] at htrack hagenda hclaims htxq hevents
  simp only [fillWord, toNat_append_add, BitVec.toNat_ofNat]
  omega

theorem statusWord_fields (h : s.events.length ≤ 32) :
    s.statusWord.extractLsb' 0 3 = BitVec.ofNat 3 s.ctl.state.number ∧
    s.statusWord.extractLsb' 4 3 = s.resumeField ∧
    s.statusWord.extractLsb' 8 3 = s.port.access.code ∧
    (s.statusWord.extractLsb' 16 6).toNat = s.events.length ∧
    s.statusWord.getLsbD 24 = s.attn := by
  have hsum := s.statusWord_toNat h
  have hattn := Bool.toNat_le s.attn
  refine ⟨extractLsb'_of_toNat ?_, extractLsb'_of_toNat ?_, extractLsb'_of_toNat ?_, ?_, getLsbD_of_toNat ?_⟩
  case refine_4 =>
    rw [BitVec.extractLsb'_toNat, Nat.shiftRight_eq_div_pow]
    omega
  all_goals omega

theorem statusWord_unused : s.statusWord &&& 0xFEC0F888#32 = 0 := by
  show s.statusWord &&& (127#7 ++ 0#1 ++ 3#2 ++ 0#6 ++ 31#5 ++ 0#3 ++ 1#1 ++ 0#3 ++ 1#1 ++ 0#3 : BitVec 32) = 0
  rw [statusWord_eq]
  repeat' apply append_and_eq_zero
  all_goals simp

theorem positionWord_fields :
    s.positionWord.extractLsb' 0 24 = s.pos.count ∧ s.positionWord.getLsbD 24 = decide (s.pos.dir = .reverse) := by
  have hsum := s.positionWord_toNat
  have hdir : s.pos.dir.bit.toNat = (decide (s.pos.dir = .reverse)).toNat := by cases s.pos.dir <;> rfl
  have hbit := Bool.toNat_le (decide (s.pos.dir = .reverse))
  exact ⟨extractLsb'_of_toNat (by omega), getLsbD_of_toNat (by omega)⟩

theorem positionWord_unused : s.positionWord &&& 0xFE000000#32 = 0 := by
  show (0#7 ++ s.pos.dir.bit ++ s.pos.count) &&& (127#7 ++ 0#1 ++ 0#24) = (0 : BitVec 32)
  repeat' apply append_and_eq_zero
  all_goals simp

theorem fillWord_fields (h : s.WithinCapacities) :
    (s.fillWord.extractLsb' 0 6).toNat = s.track.length ∧ (s.fillWord.extractLsb' 6 7).toNat = s.agenda.length ∧
    (s.fillWord.extractLsb' 13 6).toNat = s.claims.length ∧ (s.fillWord.extractLsb' 19 5).toNat = s.link.txq.length ∧
    (s.fillWord.extractLsb' 24 6).toNat = s.events.length := by
  have hsum := s.fillWord_toNat h
  obtain ⟨htrack, hagenda, hclaims, htxq, hevents⟩ := h
  norm_num [Config.trackCapacity, Config.agendaCapacity, Config.claimsCapacity, Config.txqCapacity,
    Config.eventCapacity] at htrack hagenda hclaims htxq hevents
  simp only [BitVec.extractLsb'_toNat, Nat.shiftRight_eq_div_pow]
  omega

theorem fillWord_unused : s.fillWord &&& 0xC0000000#32 = 0 := by
  show s.fillWord &&& (3#2 ++ 0#6 ++ 0#5 ++ 0#6 ++ 0#7 ++ 0#6 : BitVec 32) = 0
  unfold fillWord
  repeat' apply append_and_eq_zero
  all_goals simp

end Station

/-! ## TABLE_SEL (R182) -/

theorem Collection.ofCode_code (c : Collection) : Collection.ofCode c.code = some c := by cases c <;> rfl

theorem Collection.ofCode_of_le {b : BitVec 3} (h : 5 ≤ b.toNat) : Collection.ofCode b = none := by
  have hne (k : BitVec 3) (hk : k.toNat < 5) : b ≠ k := fun e => absurd h (by rw [e]; omega)
  unfold Collection.ofCode
  rw [if_neg (hne 0 (by decide)), if_neg (hne 1 (by decide)), if_neg (hne 2 (by decide)), if_neg (hne 3 (by decide)),
    if_neg (hne 4 (by decide))]

namespace Station

variable {s : Station} {x : Word}

theorem writeTableSel_of_code {c : Collection} (h : x.extractLsb' 0 3 = c.code) :
    s.writeTableSel x = (s.loadRecord c (x.extractLsb' 8 8)).portAnswers .ok 0 := by
  unfold writeTableSel bitsOf
  rw [h, Collection.ofCode_code]

theorem writeTableSel_of_le (h : 5 ≤ (x.extractLsb' 0 3).toNat) : s.writeTableSel x = s.portAnswers .refusedRange 0 := by
  unfold writeTableSel bitsOf
  rw [Collection.ofCode_of_le h]

/-- The length of a collection (R182). -/
def collectionLength (s : Station) : Collection → Nat
  | .track => s.track.length
  | .agenda => s.agenda.length
  | .claims => s.claims.length
  | .txq => s.link.txq.length
  | .events => s.events.length

theorem recordAt_of_length_le {c : Collection} {k : Nat} (h : s.collectionLength c ≤ k) : s.recordAt c k = Record4.zero := by
  cases c <;> (unfold recordAt; rw [List.getElem?_eq_none h]; rfl)

theorem recordAt_events {k : Nat} {e : EventRecord} (h : s.events[k]? = some e) : s.recordAt .events k = e.record := by
  unfold recordAt
  rw [h]
  rfl

end Station

/-- Settles O51: every word is the sum of its fields; the codes are read off one by one. -/
theorem registerAndRecordLayouts : Obligations.RegisterAndRecordLayouts := by
  refine ⟨fun i => ?_, fun e => ?_, fun c => c.record_words, fun e h => ⟨?_, txRecord1_toNat e.payload, ?_, ?_⟩, fun e => ?_,
    fun s e es h => ?_, fun s x e hx he => ?_, fun s h => ?_⟩
  · obtain ⟨h0, h1, h2⟩ := i.record_words
    refine ⟨h0, h1, ?_, rfl⟩
    rw [h2]
    congr 2
    · cases i.verdict <;> rfl
    · cases i.source <;> rfl
  · obtain ⟨h0, h1, h2⟩ := e.record_words
    refine ⟨h0, h1, ?_, rfl⟩
    rw [h2]
    cases e.claim <;> rfl
  · rw [e.record_r0 h]
    congr 2
    · cases e.payload <;> rfl
    · cases e.origin <;> rfl
  · show (txRecord2 e.payload).toNat = _
    cases e.payload with
    | sight _ p _ _ => exact BitVec.toNat_setWidth_of_le (by decide)
    | claim _ _ p _ => exact BitVec.toNat_setWidth_of_le (by decide)
    | _ => rfl
  · show (txRecord3 e.payload).toNat = _
    cases e.payload with
    | claim _ _ _ l => exact BitVec.toNat_setWidth_of_le (by decide)
    | _ => rfl
  · obtain ⟨h0, h1, h2⟩ := e.record_words
    refine ⟨?_, ?_, ?_, ?_, e.fields.kind.code_bounds⟩
    · rw [h0]
      cases e.fields.kind <;> rfl
    · rw [h1]
      congr 6
      · cases e.fields.item <;> simp [Tag.bits_toNat, Nat.add_assoc]
      · cases e.fields.template <;> rfl
      · cases e.fields.channel <;> rfl
    · rw [h2]
      congr 2
      · cases e.fields.claim <;> simp [Tag.bits_toNat]
      · cases e.fields.station <;> rfl
      · cases e.fields.reason <;> rfl
    · show BitVec.ofInt 32 (e.fields.value.getD 0) = _
      cases e.fields.value <;> rfl
  · obtain ⟨_, _, hpop, _⟩ := eventsQueueAndPop
    exact ⟨_, hpop s e es h, rfl⟩
  · refine ⟨_, exec_of_effect (Station.writeTableSel_of_code (c := .events) hx), ?_⟩
    exact Station.recordAt_events he
  · obtain ⟨-, -, -, -, hevents⟩ := id h
    obtain ⟨h0, h4, h8, h16, h24⟩ := s.statusWord_fields hevents
    obtain ⟨hcount, hdir⟩ := s.positionWord_fields
    obtain ⟨htrack, hagenda, hclaims, htxq, hfill⟩ := s.fillWord_fields h
    refine ⟨h0.trans ?_, h4.trans ?_, h8.trans ?_, h16, h24, s.statusWord_unused, hcount, hdir,
      s.positionWord_unused, htrack, hagenda, hclaims, htxq, hfill, s.fillWord_unused⟩
    · cases s.ctl.state <;> rfl
    · unfold Station.resumeField
      cases s.ctl.resume with
      | none => rfl
      | some r => cases r <;> rfl
    · cases s.port.access <;> rfl

end Sys2Proof.Machine

/-! PROOF. The configuration items: their numbers, the codes that their fields take, and what an item does with a written
word, said once for every item. -/

namespace Sys2Proof.Machine

/-! ## Item numbers (R186 to R188) -/

section

variable {n : BitVec 8}

theorem itemOf_station (h : n.toNat < 16) : itemOf n = stationItem n.toNat := if_pos h

theorem itemOf_sensor {k : Fin 4} {p : Nat} (hp : p < 4) (h : n.toNat = 16 + 4 * k.val + p) :
    itemOf n = sensorItem k p := by
  unfold itemOf
  rw [if_neg (by omega), if_pos (by omega)]
  congr 1
  · exact Fin.ext (by simp [Fin.ofNat]; omega)
  · omega

theorem itemOf_template {k : Fin 16} {p : Nat} (hp : p < 4) (h : n.toNat = 32 + 4 * k.val + p) :
    itemOf n = templateItem k p := by
  unfold itemOf
  rw [if_neg (by omega), if_neg (by omega), if_pos (by omega)]
  congr 1
  · exact Fin.ext (by simp [Fin.ofNat]; omega)
  · omega

theorem itemOf_channel {k : Fin 4} {p : Nat} (hp : p < 8) (h : n.toNat = 96 + 8 * k.val + p) :
    itemOf n = channelItem k p := by
  unfold itemOf
  rw [if_neg (by omega), if_neg (by omega), if_neg (by omega), if_pos (by omega)]
  congr 1
  · exact Fin.ext (by simp [Fin.ofNat]; omega)
  · omega

theorem itemOf_void (h : 128 ≤ n.toNat) : itemOf n = .void := by
  unfold itemOf
  rw [if_neg (by omega), if_neg (by omega), if_neg (by omega), if_neg (by omega)]

/-- Every number is a station item's, a sensor's, a template's, a channel's or no item's. -/
theorem itemOf_cases (n : BitVec 8) :
    (n.toNat < 16 ∧ itemOf n = stationItem n.toNat) ∨
    (∃ (k : Fin 4) (p : Nat), p < 4 ∧ n.toNat = 16 + 4 * k.val + p ∧ itemOf n = sensorItem k p) ∨
    (∃ (k : Fin 16) (p : Nat), p < 4 ∧ n.toNat = 32 + 4 * k.val + p ∧ itemOf n = templateItem k p) ∨
    (∃ (k : Fin 4) (p : Nat), p < 8 ∧ n.toNat = 96 + 8 * k.val + p ∧ itemOf n = channelItem k p) ∨
    (128 ≤ n.toNat ∧ itemOf n = .void) := by
  by_cases h16 : n.toNat < 16
  · exact .inl ⟨h16, itemOf_station h16⟩
  by_cases h32 : n.toNat < 32
  · have hp : (n.toNat - 16) % 4 < 4 := by omega
    have hn : n.toNat = 16 + 4 * ((n.toNat - 16) / 4) + (n.toNat - 16) % 4 := by omega
    exact .inr (.inl ⟨⟨(n.toNat - 16) / 4, by omega⟩, _, hp, hn, itemOf_sensor hp hn⟩)
  by_cases h96 : n.toNat < 96
  · have hp : (n.toNat - 32) % 4 < 4 := by omega
    have hn : n.toNat = 32 + 4 * ((n.toNat - 32) / 4) + (n.toNat - 32) % 4 := by omega
    exact .inr (.inr (.inl ⟨⟨(n.toNat - 32) / 4, by omega⟩, _, hp, hn, itemOf_template hp hn⟩))
  by_cases h128 : n.toNat < 128
  · have hp : (n.toNat - 96) % 8 < 8 := by omega
    have hn : n.toNat = 96 + 8 * ((n.toNat - 96) / 8) + (n.toNat - 96) % 8 := by omega
    exact .inr (.inr (.inr (.inl ⟨⟨(n.toNat - 96) / 8, by omega⟩, _, hp, hn, itemOf_channel hp hn⟩)))
  · exact .inr (.inr (.inr (.inr ⟨by omega, itemOf_void (by omega)⟩)))

end

theorem stationItem_class {k : Nat} (h : k < 16) : (stationItem k).itemClass =
    if k = 0 then .fixed else if k ≤ 9 then .locked else if k = 10 then .live else .void := by
  interval_cases k <;> rfl

theorem sensorItem_class (n : Fin 4) {p : Nat} (h : p < 4) :
    (sensorItem n p).itemClass = if p ≤ 1 then .locked else .void := by
  interval_cases p <;> rfl

theorem templateItem_class (t : Fin 16) {p : Nat} (h : p < 4) : (templateItem t p).itemClass = .locked := by
  interval_cases p <;> rfl

theorem channelItem_class (c : Fin 4) {p : Nat} (h : p < 8) :
    (channelItem c p).itemClass = if p = 0 then .locked else if p = 7 then .void else .live := by
  interval_cases p <;> rfl

/-- The class of each number (R186 to R188). -/
theorem itemOf_class (n : BitVec 8) : (itemOf n).itemClass =
    if n.toNat = 0 then .fixed
    else if n.toNat ≤ 9 then .locked
    else if n.toNat = 10 then .live
    else if n.toNat ≤ 15 then .void
    else if n.toNat ≤ 31 then (if n.toNat % 4 ≤ 1 then .locked else .void)
    else if n.toNat ≤ 95 then .locked
    else if n.toNat ≤ 127 then (if n.toNat % 8 = 0 then .locked else if n.toNat % 8 = 7 then .void else .live)
    else .void := by
  rcases itemOf_cases n with ⟨hn, hi⟩ | ⟨k, p, hp, hn, hi⟩ | ⟨k, p, hp, hn, hi⟩ | ⟨k, p, hp, hn, hi⟩ | ⟨hn, hi⟩
  · rw [hi, stationItem_class hn, if_pos (c := n.toNat ≤ 15) (by omega)]
  · have hmod : n.toNat % 4 = p := by omega
    rw [hi, sensorItem_class k hp, hmod, if_neg (c := n.toNat = 0) (by omega), if_neg (c := n.toNat ≤ 9) (by omega),
      if_neg (c := n.toNat = 10) (by omega), if_neg (c := n.toNat ≤ 15) (by omega),
      if_pos (c := n.toNat ≤ 31) (by omega)]
  · rw [hi, templateItem_class k hp, if_neg (c := n.toNat = 0) (by omega), if_neg (c := n.toNat ≤ 9) (by omega),
      if_neg (c := n.toNat = 10) (by omega), if_neg (c := n.toNat ≤ 15) (by omega),
      if_neg (c := n.toNat ≤ 31) (by omega), if_pos (c := n.toNat ≤ 95) (by omega)]
  · have hmod : n.toNat % 8 = p := by omega
    rw [hi, channelItem_class k hp, hmod, if_neg (c := n.toNat = 0) (by omega), if_neg (c := n.toNat ≤ 9) (by omega),
      if_neg (c := n.toNat = 10) (by omega), if_neg (c := n.toNat ≤ 15) (by omega),
      if_neg (c := n.toNat ≤ 31) (by omega), if_neg (c := n.toNat ≤ 95) (by omega),
      if_pos (c := n.toNat ≤ 127) (by omega)]
  · rw [hi, if_neg (by omega), if_neg (by omega), if_neg (by omega), if_neg (by omega), if_neg (by omega),
      if_neg (by omega), if_neg (by omega)]
    rfl

/-! ## Codes of enumerated fields (R186 to R188) -/

theorem BitRate.ofCode_eq (x : Word) : BitRate.ofCode x =
    if x.toNat ≤ 3 then
      some (if x = 0 then .kbit125 else if x = 1 then .kbit250 else if x = 2 then .kbit500 else .kbit1000)
    else none := by
  by_cases h : x.toNat ≤ 3
  · have hx : x = 0 ∨ x = 1 ∨ x = 2 ∨ x = 3 := by bv_omega
    rcases hx with rfl | rfl | rfl | rfl <;> rfl
  · rw [if_neg h]
    unfold BitRate.ofCode
    rw [if_neg, if_neg, if_neg, if_neg] <;> (rintro rfl; exact h (by decide))

theorem EncoderMode.ofCode_eq (x : Word) : EncoderMode.ofCode x =
    if x.toNat ≤ 2 then some (if x = 0 then .quad4 else if x = 1 then .quad1 else .pulseDir) else none := by
  by_cases h : x.toNat ≤ 2
  · have hx : x = 0 ∨ x = 1 ∨ x = 2 := by bv_omega
    rcases hx with rfl | rfl | rfl <;> rfl
  · rw [if_neg h]
    unfold EncoderMode.ofCode
    rw [if_neg, if_neg, if_neg] <;> (rintro rfl; exact h (by decide))

theorem Prescale.ofValue_eq (x : Word) : Prescale.ofValue x =
    if (x == 1 || x == 2 || x == 4 || x == 8) = true then
      some (if x = 1 then .by1 else if x = 2 then .by2 else if x = 4 then .by4 else .by8)
    else none := by
  by_cases h : (x == 1 || x == 2 || x == 4 || x == 8) = true
  · have hx : x = 1 ∨ x = 2 ∨ x = 4 ∨ x = 8 := by simpa [or_assoc] using h
    rcases hx with rfl | rfl | rfl | rfl <;> rfl
  · rw [if_neg h]
    unfold Prescale.ofValue
    rw [if_neg, if_neg, if_neg, if_neg] <;> (rintro rfl; exact h (by decide))

/-- The condition of a code, for codes up to 4. -/
def Condition.named (c : BitVec 3) : Condition :=
  match c.toNat with | 0 => .any | 1 => .pass | 2 => .reject | 3 => .notReject | _ => .undecided

theorem Condition.ofCode_eq (c : BitVec 3) :
    Condition.ofCode c = if c.toNat ≤ 4 then some (Condition.named c) else none := by
  revert c; decide

theorem Condition.code_named (c : BitVec 3) (h : c.toNat ≤ 4) : (Condition.named c).code = c := by
  revert c; decide

/-- The window group of a code, for codes up to 8. -/
def groupNamed (c : BitVec 4) : Option (BitVec 3) :=
  match c.toNat with | 0 => none | g + 1 => some (BitVec.ofNat 3 g)

theorem groupOfCode_eq (c : BitVec 4) : groupOfCode c = if c.toNat ≤ 8 then some (groupNamed c) else none := by
  revert c; decide

theorem groupCode_named (c : BitVec 4) (h : c.toNat ≤ 8) : groupCode (groupNamed c) = c := by
  revert c; decide

/-- The aux role of a code, for codes but 3. -/
def AuxRole.named (c : BitVec 2) : AuxRole := match c.toNat with | 0 => .none | 1 => .hold | _ => .inhibit

theorem AuxRole.ofCode_eq (c : BitVec 2) : AuxRole.ofCode c = if c ≠ 3 then some (AuxRole.named c) else Option.none := by
  revert c; decide

theorem AuxRole.code_named (c : BitVec 2) (h : c ≠ 3) : (AuxRole.named c).code = c := by
  revert c; decide

/-- The form kind of a code, for codes but 3. -/
def FormKind.named (c : BitVec 2) : FormKind := match c.toNat with | 0 => .single | 1 => .burst | _ => .held

theorem FormKind.ofCode_eq (c : BitVec 2) : FormKind.ofCode c = if c ≠ 3 then some (FormKind.named c) else none := by
  revert c; decide

theorem FormKind.code_named (c : BitVec 2) (h : c ≠ 3) : (FormKind.named c).code = c := by
  revert c; decide

theorem rangeValue_eq {low high w : Nat} (hw : w ≤ 32) (x : Word) : rangeValue low high w x =
    if low ≤ x.toNat ∧ x.toNat ≤ high then some (x.extractLsb' 0 w) else none := by
  unfold rangeValue
  rw [BitVec.setWidth_eq_extractLsb' hw]

theorem markIntervalValue_eq (x : Word) : markIntervalValue x =
    if x = 0 ∨ 10 ≤ x.toNat ∧ x.toNat ≤ 10000 then some (x.extractLsb' 0 14) else none := by
  unfold markIntervalValue
  by_cases h : x = 0
  · rw [if_pos h, if_pos (.inl h), h]
    rfl
  · rw [if_neg h, rangeValue_eq (by decide)]
    simp only [h, false_or]

/-! ## Written words of several fields (R187, R188) -/

/-- A template with the fields of a SELECT word. -/
def Template.selected (x : Word) (t : Template) : Template :=
  { t with
    enabled := x.getLsbD 0, lanes := x.extractLsb' 4 4, channel := (x.extractLsb' 8 2).toFin,
    slot := Slot.ofBool (x.getLsbD 10), condition := Condition.named (x.extractLsb' 12 3), report := x.getLsbD 15,
    classes := x.extractLsb' 16 16 }

/-- A template with the fields of a TIMING word. -/
def Template.timed (x : Word) (t : Template) : Template :=
  { t with
    offset := x.extractLsb' 0 16, tolerance := x.extractLsb' 16 8,
    policy := if x.getLsbD 24 then .fireLate else .drop, group := groupNamed (x.extractLsb' 28 4) }

/-- A template with the fields of a WINDOW word. -/
def Template.spanned (x : Word) (t : Template) : Template :=
  { t with lead := x.extractLsb' 0 12, length := x.extractLsb' 16 16 }

/-- The channel settings that a word holds. -/
def ChannelSettings.held (x : Word) : ChannelSettings :=
  { polarity := if x.getLsbD 0 then .activeLow else .activeHigh, role := AuxRole.named (x.extractLsb' 4 2),
    input := (x.extractLsb' 8 2).toFin, chained := x.getLsbD 12, chainChannel := (x.extractLsb' 13 2).toFin,
    chainSlot := Slot.ofBool (x.getLsbD 15) }

/-- A form with the fields of a SHAPE word. -/
def Form.shaped (x : Word) (f : Form) : Form :=
  { f with delay := x.extractLsb' 0 16, kind := FormKind.named (x.extractLsb' 16 2), burst := x.extractLsb' 24 8 }

/-- A form with the fields of a WIDTHS word. -/
def Form.widened (x : Word) (f : Form) : Form := { f with high := x.extractLsb' 0 16, low := x.extractLsb' 16 16 }

/-- A form with the field of a CAP word. -/
def Form.capped (x : Word) (f : Form) : Form := { f with cap := x.extractLsb' 0 16 }

theorem Template.writeSelect_eq (x : Word) (t : Template) : t.writeSelect x =
    if (x.extractLsb' 12 3).toNat ≤ 4 then some (t.selected x) else none := by
  unfold Template.writeSelect bitsOf
  rw [Condition.ofCode_eq]
  by_cases h : (x.extractLsb' 12 3).toNat ≤ 4
  · rw [if_pos h, if_pos h]
    rfl
  · rw [if_neg h, if_neg h]

theorem Template.writeTiming_eq (x : Word) (t : Template) : t.writeTiming x =
    if (x.extractLsb' 28 4).toNat ≤ 8 then some (t.timed x) else none := by
  unfold Template.writeTiming bitsOf
  rw [groupOfCode_eq]
  by_cases h : (x.extractLsb' 28 4).toNat ≤ 8
  · rw [if_pos h, if_pos h]
    rfl
  · rw [if_neg h, if_neg h]

theorem Template.writeWindow_eq (x : Word) (t : Template) : t.writeWindow x =
    if x.extractLsb' 16 16 ≠ 0 then some (t.spanned x) else none :=
  (ite_not ..).symm

theorem ChannelSettings.ofWord_eq (x : Word) : ChannelSettings.ofWord x =
    if x.extractLsb' 4 2 ≠ 3 then some (ChannelSettings.held x) else none := by
  unfold ChannelSettings.ofWord bitsOf
  rw [AuxRole.ofCode_eq]
  by_cases h : x.extractLsb' 4 2 = 3
  · rw [if_neg (not_not.mpr h), if_neg (not_not.mpr h)]
  · rw [if_pos h, if_pos h]
    rfl

theorem shapeFields_eq (x : Word) : shapeFields x =
    if x.extractLsb' 16 2 ≠ 3 ∧ x.extractLsb' 24 8 ≠ 0 then some (Form.shaped x) else none := by
  unfold shapeFields bitsOf
  rw [FormKind.ofCode_eq]
  by_cases hk : x.extractLsb' 16 2 = 3
  · rw [if_neg (not_not.mpr hk), if_neg fun h => h.1 hk]
  · rw [if_pos hk, if_congr (and_iff_right hk) rfl rfl, ite_not]
    rfl

theorem widthsFields_eq (x : Word) : widthsFields x =
    if x.extractLsb' 0 16 ≠ 0 ∧ x.extractLsb' 16 16 ≠ 0 then some (Form.widened x) else none := by
  unfold widthsFields bitsOf
  rw [← if_congr not_or rfl rfl, ite_not]
  rfl

theorem capField_eq (x : Word) : capField x = if x.toNat ≤ 65535 then some (Form.capped x) else none := by
  unfold capField
  rw [rangeValue_eq (by decide)]
  simp only [Nat.zero_le, true_and]
  split_ifs <;> rfl

/-! ## What an item does with a word (R185 steps 4 and 5) -/

namespace Station

variable (s : Station)

/-- The station after an item has taken a word whose fields are in their ranges. -/
def takenItem (i : ConfigItem) (x : Word) : Station :=
  match i with
  | .stationNumber => s.withSettings { s.settings with stationNumber := x.extractLsb' 0 5 }
  | .bitRate =>
    s.withSettings { s.settings with
      bitRate := if x = 0 then .kbit125 else if x = 1 then .kbit250 else if x = 2 then .kbit500 else .kbit1000 }
  | .encoderMode =>
    { s.withSettings { s.settings with
        encoderMode := if x = 0 then .quad4 else if x = 1 then .quad1 else .pulseDir } with pos.ref := s.pins.enc }
  | .prescale =>
    { s.withSettings { s.settings with
        prescale := if x = 1 then .by1 else if x = 2 then .by2 else if x = 4 then .by4 else .by8 } with pos.sub := 0 }
  | .skewTolerance => s.withSettings { s.settings with skewTolerance := x.extractLsb' 0 8 }
  | .joinWait => s.withSettings { s.settings with joinWait := x.extractLsb' 0 16 }
  | .markInterval => s.withSettings { s.settings with markInterval := x.extractLsb' 0 14 }
  | .trackHorizon => s.withSettings { s.settings with trackHorizon := x.extractLsb' 0 22 }
  | .claimHorizon => s.withSettings { s.settings with claimHorizon := x.extractLsb' 0 22 }
  | .attnThreshold => s.withSettings { s.settings with attnThreshold := x.extractLsb' 0 6 }
  | .sensorMode n => s.setSensorSettings n ((s.settings.sensors.get n).writeMode x)
  | .sensorGap n => s.setSensorSettings n { s.settings.sensors.get n with gap := x.extractLsb' 0 16 }
  | .templateOrigins t => s.setTemplate t { s.template t with origins := x }
  | .templateSelect t => s.setTemplate t ((s.template t).selected x)
  | .templateTiming t => s.setTemplate t ((s.template t).timed x)
  | .templateWindow t => s.setTemplate t ((s.template t).spanned x)
  | .channelSettings c => s.setChannelSettings c (ChannelSettings.held x)
  | .formShape c slot => s.writeForm c slot (Form.shaped x)
  | .formWidths c slot => s.writeForm c slot (Form.widened x)
  | .formCap c slot => s.writeForm c slot (Form.capped x)
  | .identity => s
  | .void => s

end Station

/-- A value that is read where `p` holds puts its result there and nowhere else. -/
theorem map_of_eq_ite {α : Type} {o : Option α} {p : Prop} [Decidable p] {v : α} (ho : o = if p then some v else none)
    {b : Bool} (hb : b = true ↔ p) (f : α → Station) : o.map f = if b = true then some (f v) else none := by
  rw [ho, if_congr hb rfl rfl]
  split <;> rfl

/-- An item takes exactly the words whose fields are in their ranges. -/
theorem Station.takeItem_eq (s : Station) (i : ConfigItem) (x : Word) :
    s.takeItem i x = if i.accepts x = true then some (s.takenItem i x) else none := by
  cases i with
  | identity => rfl
  | void => rfl
  | sensorMode n => rfl
  | templateOrigins t => rfl
  | bitRate => exact map_of_eq_ite (BitRate.ofCode_eq x) decide_eq_true_iff _
  | encoderMode => exact map_of_eq_ite (EncoderMode.ofCode_eq x) decide_eq_true_iff _
  | prescale => exact map_of_eq_ite (Prescale.ofValue_eq x) Iff.rfl _
  | markInterval => exact map_of_eq_ite (markIntervalValue_eq x) (by simp [ConfigItem.accepts]) _
  | templateSelect t => exact map_of_eq_ite ((s.template t).writeSelect_eq x) decide_eq_true_iff _
  | templateTiming t => exact map_of_eq_ite ((s.template t).writeTiming_eq x) decide_eq_true_iff _
  | templateWindow t => exact map_of_eq_ite ((s.template t).writeWindow_eq x) bne_iff_ne _
  | channelSettings c => exact map_of_eq_ite (ChannelSettings.ofWord_eq x) bne_iff_ne _
  | formShape c slot => exact map_of_eq_ite (shapeFields_eq x) (by simp [ConfigItem.accepts]) _
  | formWidths c slot => exact map_of_eq_ite (widthsFields_eq x) (by simp [ConfigItem.accepts]) _
  | formCap c slot => exact map_of_eq_ite (capField_eq x) decide_eq_true_iff _
  | _ => exact map_of_eq_ite (rangeValue_eq (by decide) x) (by simp [ConfigItem.accepts]) _

namespace Station

variable {s : Station} {n : BitVec 8} {x : Word}

theorem writeItem_of_accepts {i : ConfigItem} (h : i.accepts x = true) :
    s.writeItem i x = (s.takenItem i x).portAnswers .ok 0 := by
  unfold writeItem
  rw [s.takeItem_eq, if_pos h]

theorem writeItem_of_not_accepts {i : ConfigItem} (h : i.accepts x = false) :
    s.writeItem i x = s.portAnswers .refusedRange 0 := by
  unfold writeItem
  rw [s.takeItem_eq, if_neg (Bool.eq_false_iff.mp h)]

/-- A write whose item is LIVE, or LOCKED in HALTED, comes to the checks of the fields. -/
theorem configWrite_of_open
    (h : (itemOf n).itemClass = .live ∨ (itemOf n).itemClass = .locked ∧ s.ctl.state = .halted) :
    s.configWrite n x = s.writeItem (itemOf n) x := by
  unfold configWrite
  rcases h with h | ⟨h, hst⟩
  · rw [h]
  · rw [h]
    exact if_pos hst

theorem configWrite_of_void (h : (itemOf n).itemClass = .void) : s.configWrite n x = s.portAnswers .refusedVoid 0 := by
  unfold configWrite
  rw [h]

theorem configWrite_of_fixed (h : (itemOf n).itemClass = .fixed) : s.configWrite n x = s.portAnswers .refusedFixed 0 := by
  unfold configWrite
  rw [h]

theorem configWrite_of_locked (h : (itemOf n).itemClass = .locked) (hst : s.ctl.state ≠ .halted) :
    s.configWrite n x = s.portAnswers .refusedState 0 := by
  unfold configWrite
  rw [h]
  exact if_neg hst

/-- A VOID item reads 0 (R185). -/
theorem itemWord_of_void {i : ConfigItem} (h : i.itemClass = .void) : s.itemWord i = 0 := by
  cases i with
  | void => rfl
  | _ => cases h

theorem configRead_of_void (h : (itemOf n).itemClass = .void) : s.configRead n = s.portAnswers .refusedVoid 0 := by
  unfold configRead
  rw [if_pos h, itemWord_of_void h]

theorem configRead_of_not_void (h : (itemOf n).itemClass ≠ .void) :
    s.configRead n = s.portAnswers .ok (s.itemWord (itemOf n)) := by
  unfold configRead
  rw [if_neg h]

end Station

/-- Settles O52: the class of a number comes first, then the station state, then the fields. -/
theorem configurationReadsAndRefusals : Obligations.ConfigurationReadsAndRefusals :=
  ⟨itemOf_class, fun _ _ _ =>
    ⟨fun h => ⟨exec_of_effect (Station.configRead_of_void h), exec_of_effect (Station.configWrite_of_void h)⟩,
      fun h => exec_of_effect (Station.configRead_of_not_void h),
      fun h => exec_of_effect (Station.configWrite_of_fixed h),
      fun h hst => exec_of_effect (Station.configWrite_of_locked h hst),
      fun h hx => exec_of_effect ((Station.configWrite_of_open h).trans (Station.writeItem_of_not_accepts hx))⟩⟩

end Sys2Proof.Machine

/-! PROOF. Configuration writes: the word that an item shows once it has taken one, what a write leaves, and what becomes of
a channel's sequence when its settings change. -/

namespace Sys2Proof.Machine

/-! ## A word kept in its fields -/

/-- The bits `a` are those of `x` from bit `k` on, where the mask `m` keeps them. -/
def MaskedBits (x : Word) (k : Nat) {v : Nat} (a m : BitVec v) : Prop := a = x.extractLsb' k v &&& m

namespace MaskedBits

variable {x : Word} {v : Nat} {a m : BitVec v}

theorem unused_top (k v : Nat) : MaskedBits x k 0#v 0#v := BitVec.and_zero.symm

theorem field_top (k v : Nat) {b : BitVec v} (hb : b = x.extractLsb' k v) : MaskedBits x k b (BitVec.allOnes v) :=
  hb.trans BitVec.and_allOnes.symm

theorem append (k w : Nat) {b n : BitVec w} (h : MaskedBits x (k + w) a m) (hb : MaskedBits x k b n) :
    MaskedBits x k (a ++ b) (m ++ n) := by
  unfold MaskedBits at *
  rw [h, hb, ← BitVec.and_append, BitVec.extractLsb'_append_extractLsb'_eq_extractLsb' (Nat.add_comm k w ▸ rfl)]

theorem field (k w : Nat) {b : BitVec w} (h : MaskedBits x (k + w) a m) (hb : b = x.extractLsb' k w) :
    MaskedBits x k (a ++ b) (m ++ BitVec.allOnes w) := h.append k w (field_top k w hb)

theorem unused (k w : Nat) (h : MaskedBits x (k + w) a m) : MaskedBits x k (a ++ 0#w) (m ++ 0#w) :=
  h.append k w (unused_top k w)

theorem word {a m mask : Word} (h : MaskedBits x 0 a m) (hm : m = mask) : a = x &&& mask := by
  rw [h, hm, BitVec.extractLsb'_eq_self]

end MaskedBits

theorem ofBool_getLsbD (x : Word) (k : Nat) : BitVec.ofBool (x.getLsbD k) = x.extractLsb' k 1 := by
  rw [BitVec.getLsbD_eq_extractLsb']
  generalize x.extractLsb' k 1 = b
  revert b
  decide

theorem Slot.bit_ofBool (b : Bool) : (Slot.ofBool b).bit = BitVec.ofBool b := by cases b <;> rfl

theorem Edge.bit_ite (b : Bool) : (if b then Edge.falling else .rising).bit = BitVec.ofBool b := by cases b <;> rfl

theorem LatePolicy.bit_ite (b : Bool) : (if b then LatePolicy.fireLate else .drop).bit = BitVec.ofBool b := by
  cases b <;> rfl

theorem Polarity.bit_ite (b : Bool) : (if b then Polarity.activeLow else .activeHigh).bit = BitVec.ofBool b := by
  cases b <;> rfl

theorem SensorSettings.modeWord_writeMode (c : SensorSettings) (x : Word) :
    (c.writeMode x).modeWord = x &&& 0x00000F33#32 :=
  ((MaskedBits.unused_top 12 20).field 8 4 rfl |>.unused 6 2 |>.field 4 2 rfl |>.unused 2 2
    |>.field 1 1 ((Edge.bit_ite _).trans (ofBool_getLsbD x 1)) |>.field 0 1 (ofBool_getLsbD x 0)).word rfl

theorem Template.selectWord_selected (t : Template) {x : Word} (h : (x.extractLsb' 12 3).toNat ≤ 4) :
    (t.selected x).selectWord = x &&& 0xFFFFF7F1#32 :=
  ((MaskedBits.field_top 16 16 rfl).field 15 1 (ofBool_getLsbD x 15) |>.field 12 3 (Condition.code_named _ h)
    |>.unused 11 1 |>.field 10 1 ((Slot.bit_ofBool _).trans (ofBool_getLsbD x 10)) |>.field 8 2 rfl |>.field 4 4 rfl
    |>.unused 1 3 |>.field 0 1 (ofBool_getLsbD x 0)).word rfl

theorem Template.timingWord_timed (t : Template) {x : Word} (h : (x.extractLsb' 28 4).toNat ≤ 8) :
    (t.timed x).timingWord = x &&& 0xF1FFFFFF#32 :=
  ((MaskedBits.field_top 28 4 (groupCode_named _ h)).unused 25 3
    |>.field 24 1 ((LatePolicy.bit_ite _).trans (ofBool_getLsbD x 24)) |>.field 16 8 rfl |>.field 0 16 rfl).word rfl

theorem Template.windowWord_spanned (t : Template) (x : Word) : (t.spanned x).windowWord = x &&& 0xFFFF0FFF#32 :=
  ((MaskedBits.field_top 16 16 rfl).unused 12 4 |>.field 0 12 rfl).word rfl

theorem ChannelSettings.word_held {x : Word} (h : x.extractLsb' 4 2 ≠ 3) :
    (ChannelSettings.held x).word = x &&& 0x0000F331#32 :=
  ((MaskedBits.unused_top 16 16).field 15 1 ((Slot.bit_ofBool _).trans (ofBool_getLsbD x 15)) |>.field 13 2 rfl
    |>.field 12 1 (ofBool_getLsbD x 12) |>.unused 10 2 |>.field 8 2 rfl |>.unused 6 2
    |>.field 4 2 (AuxRole.code_named _ h) |>.unused 1 3
    |>.field 0 1 ((Polarity.bit_ite _).trans (ofBool_getLsbD x 0))).word rfl

theorem Form.shapeWord_shaped (f : Form) {x : Word} (h : x.extractLsb' 16 2 ≠ 3) :
    (f.shaped x).shapeWord = x &&& 0xFF03FFFF#32 :=
  ((MaskedBits.field_top 24 8 rfl).unused 18 6 |>.field 16 2 (FormKind.code_named _ h) |>.field 0 16 rfl).word rfl

theorem Form.widthsWord_widened (f : Form) (x : Word) : (f.widened x).widthsWord = x &&& 0xFFFFFFFF#32 :=
  ((MaskedBits.field_top 16 16 rfl).field 0 16 rfl).word rfl

theorem Word.and_full (x : Word) : x &&& 0xFFFFFFFF#32 = x := BitVec.and_allOnes

/-- An item of one value shows a value in its range as it was written. -/
theorem setWidth_extractLsb'_of_lt {x : Word} {w : Nat} (h : x.toNat < 2 ^ w) :
    (x.extractLsb' 0 w).setWidth 32 = x &&& 0xFFFFFFFF#32 := by
  rw [Word.and_full]
  apply BitVec.eq_of_toNat_eq
  have hx := x.isLt
  rw [BitVec.toNat_setWidth, BitVec.extractLsb'_toNat, Nat.shiftRight_zero, Nat.mod_eq_of_lt h, Nat.mod_eq_of_lt hx]

/-- SENSOR_n_GAP (R187). -/
def SensorSettings.gapWord (c : SensorSettings) : Word := c.gap.setWidth 32

/-- FORM_c_s_CAP (R188). -/
def Form.capWord (f : Form) : Word := f.cap.setWidth 32

theorem Form.capWord_capped (f : Form) {x : Word} (h : x.toNat ≤ 65535) :
    (f.capped x).capWord = x &&& 0xFFFFFFFF#32 := setWidth_extractLsb'_of_lt (Nat.lt_succ_of_le h)

theorem BitRate.code_of_le {x : Word} (h : x.toNat ≤ 3) :
    (if x = 0 then BitRate.kbit125 else if x = 1 then .kbit250 else if x = 2 then .kbit500 else .kbit1000).code =
      x &&& 0xFFFFFFFF#32 := by
  have hx : x = 0 ∨ x = 1 ∨ x = 2 ∨ x = 3 := by bv_omega
  rcases hx with rfl | rfl | rfl | rfl <;> rfl

theorem EncoderMode.code_of_le {x : Word} (h : x.toNat ≤ 2) :
    (if x = 0 then EncoderMode.quad4 else if x = 1 then .quad1 else .pulseDir).code = x &&& 0xFFFFFFFF#32 := by
  have hx : x = 0 ∨ x = 1 ∨ x = 2 := by bv_omega
  rcases hx with rfl | rfl | rfl <;> rfl

theorem Prescale.counts_of_mem {x : Word} (h : x = 1 ∨ x = 2 ∨ x = 4 ∨ x = 8) :
    BitVec.ofNat 32
        (if x = 1 then Prescale.by1 else if x = 2 then .by2 else if x = 4 then .by4 else .by8).counts =
      x &&& 0xFFFFFFFF#32 := by
  rcases h with rfl | rfl | rfl | rfl <;> rfl

/-! ## What a write of one setting leaves -/

/-- What looks at one place of a vector, and sees no difference where that place is written, sees none anywhere. -/
theorem get_set_congr {α β : Type} {n : Nat} (f : α → β) (v : Vector α n) {i j : Fin n} {a : α}
    (h : j = i → f a = f (v.get i)) : f ((v.set i.val a i.isLt).get j) = f (v.get j) := by
  by_cases hj : j = i
  · rw [hj, get_set_same, h hj]
  · rw [get_set_other _ hj]

namespace Station

variable {s : Station}

/-- A form write reaches one slot: the live copy in HALTED, and the staged copy (R145). -/
theorem chan_writeForm_same (c : Fin 4) (sl : Slot) (f : Form → Form) :
    ((s.writeForm c sl f).chan c).slot sl =
      { live := if s.ctl.state = .halted then f ((s.chan c).slot sl).live else ((s.chan c).slot sl).live
        staged := f ((s.chan c).slot sl).staged, pending := ((s.chan c).slot sl).pending } := by
  unfold writeForm
  rw [chan_setChan_same, Channel.slot_setSlot_same]

theorem chan_writeForm_other_slot (c : Fin 4) {sl sl' : Slot} (h : sl' ≠ sl) (f : Form → Form) :
    ((s.writeForm c sl f).chan c).slot sl' = (s.chan c).slot sl' := by
  unfold writeForm
  rw [chan_setChan_same, Channel.slot_setSlot_other _ h]

theorem chan_writeForm_other {c d : Fin 4} (h : d ≠ c) (sl : Slot) (f : Form → Form) :
    (s.writeForm c sl f).chan d = s.chan d :=
  chan_setChan_other s h _

theorem run_writeForm (c d : Fin 4) (sl : Slot) (f : Form → Form) :
    ((s.writeForm c sl f).chan d).run = (s.chan d).run := by
  by_cases h : d = c
  · rw [h, writeForm, chan_setChan_same, Channel.run_setSlot]
  · rw [chan_writeForm_other h]

/-- What does not see the written fields of a form sees no change of the staged copies. -/
theorem staged_writeForm_congr {β : Type} (g : Form → β) {c d : Fin 4} {sl sl' : Slot} {f : Form → Form}
    (h : d = c → sl' = sl → ∀ b, g (f b) = g b) :
    g (((s.writeForm c sl f).chan d).slot sl').staged = g ((s.chan d).slot sl').staged := by
  by_cases hd : d = c
  · subst hd
    by_cases hsl : sl' = sl
    · subst hsl
      rw [chan_writeForm_same]
      exact h rfl rfl _
    · rw [chan_writeForm_other_slot _ hsl]
  · rw [chan_writeForm_other hd]

/-! ## A write of a channel's settings (R160) -/

/-- The station with a channel's settings replaced, before any channel has seen the change. -/
def withChannel (c : Fin 4) (v : ChannelSettings) (s : Station) : Station :=
  { s with settings.channels := s.settings.channels.set c.val v c.isLt }

section

variable {c : Fin 4} {v : ChannelSettings}

theorem setChannelSettings_of_not_acts (h : auxActsOn s (s.withChannel c v) c = false) :
    s.setChannelSettings c v = s.withChannel c v := by
  rw [s.setChannelSettings_eq _ c v rfl]
  exact if_neg (Bool.eq_false_iff.mp h)

theorem setChannelSettings_of_inhibits (h : auxActsOn s (s.withChannel c v) c = true)
    (hin : (s.withChannel c v).inhibits c = true) : s.setChannelSettings c v = (s.withChannel c v).cutSequence c := by
  rw [s.setChannelSettings_eq _ c v rfl]
  exact (if_pos h).trans (if_pos hin)

theorem setChannelSettings_of_not_inhibits (h : auxActsOn s (s.withChannel c v) c = true)
    (hin : (s.withChannel c v).inhibits c = false) : s.setChannelSettings c v = (s.withChannel c v).releaseHold c := by
  rw [s.setChannelSettings_eq _ c v rfl]
  exact (if_pos h).trans (if_neg (Bool.eq_false_iff.mp hin))

theorem setChannelSettings_settings : (s.setChannelSettings c v).settings = (s.withChannel c v).settings := by
  obtain ⟨ch, ev, k, h⟩ := conditionsChanged_frame s (s.withChannel c v)
  show (conditionsChanged s (s.withChannel c v)).settings = _
  rw [h]

/-- In HALTED no chain is followed, so the channel's own sequence is all that can end. -/
theorem setChannelSettings_of_halted (hst : s.ctl.state = .halted) : s.setChannelSettings c v = s.withChannel c v ∨
    ∃ ev, s.setChannelSettings c v = { (s.withChannel c v).setRun c none with events := ev } := by
  cases hacts : auxActsOn s (s.withChannel c v) c with
  | false => exact .inl (setChannelSettings_of_not_acts hacts)
  | true =>
    cases hr : (s.chan c).run with
    | none =>
      rw [auxActsOn_of_idle (s := s.withChannel c v) hr] at hacts
      cases hacts
    | some r =>
      refine .inr ?_
      cases hin : (s.withChannel c v).inhibits c with
      | true => exact ⟨_, (setChannelSettings_of_inhibits hacts hin).trans (cutSequence_of_run hr)⟩
      | false =>
        have hhold : r.phase = .hold := by
          rcases (auxActsOn_of_run (s := s.withChannel c v) hr).mp hacts with ⟨-, hin'⟩ | ⟨hp, -, -⟩
          · exact absurd hin' (Bool.eq_false_iff.mp hin)
          · exact hp
        refine ⟨s.events, (setChannelSettings_of_not_inhibits hacts hin).trans ?_⟩
        rw [releaseHold_of_hold (s := s.withChannel c v) hr hhold,
          endSequence_of_no_chain (s := s.withChannel c v) (.inl hst)]
        rfl

theorem chan_setRun_same (c : Fin 4) (r : Option Run) : (s.setRun c r).chan c = { s.chan c with run := r } :=
  chan_setChan_same s c _

theorem slot_setRun (c d : Fin 4) (r : Option Run) (sl : Slot) :
    ((s.setRun c r).chan d).slot sl = (s.chan d).slot sl := by
  by_cases h : d = c
  · rw [h, chan_setRun_same]
    cases sl <;> rfl
  · rw [setRun, chan_setChan_other s h]

theorem slot_setChannelSettings (hst : s.ctl.state = .halted) (d : Fin 4) (sl : Slot) :
    ((s.setChannelSettings c v).chan d).slot sl = (s.chan d).slot sl := by
  rcases setChannelSettings_of_halted (c := c) (v := v) hst with h | ⟨ev, h⟩ <;> rw [h]
  · rfl
  · exact slot_setRun (s := s.withChannel c v) c d none sl

theorem chan_setChannelSettings_other (hst : s.ctl.state = .halted) {d : Fin 4} (hd : d ≠ c) :
    (s.setChannelSettings c v).chan d = s.chan d := by
  rcases setChannelSettings_of_halted (c := c) (v := v) hst with h | ⟨ev, h⟩ <;> rw [h]
  · rfl
  · exact chan_setChan_other (s.withChannel c v) hd _

end

/-! ## What an item shows once it has taken a word -/

variable {i j : ConfigItem} {x : Word}

/-- The item written shows the word in its fields (R185). -/
theorem itemWord_takenItem_same (h : i.accepts x = true) : (s.takenItem i x).itemWord i = x &&& i.fieldMask := by
  cases i with
  | identity => cases h
  | void => cases h
  | bitRate => exact BitRate.code_of_le (of_decide_eq_true h)
  | encoderMode => exact EncoderMode.code_of_le (of_decide_eq_true h)
  | prescale => exact Prescale.counts_of_mem (by simpa [ConfigItem.accepts, or_assoc] using h)
  | sensorMode n =>
    exact (congrArg SensorSettings.modeWord (get_set_same _ n _)).trans (SensorSettings.modeWord_writeMode _ x)
  | sensorGap n =>
    exact (congrArg SensorSettings.gapWord (get_set_same _ n _)).trans
      (setWidth_extractLsb'_of_lt (Nat.lt_succ_of_le (of_decide_eq_true h)))
  | templateOrigins t => exact (congrArg Template.origins (get_set_same _ t _)).trans (Word.and_full x).symm
  | templateSelect t =>
    exact (congrArg Template.selectWord (get_set_same _ t _)).trans
      (Template.selectWord_selected _ (of_decide_eq_true h))
  | templateTiming t =>
    exact (congrArg Template.timingWord (get_set_same _ t _)).trans
      (Template.timingWord_timed _ (of_decide_eq_true h))
  | templateWindow t =>
    exact (congrArg Template.windowWord (get_set_same _ t _)).trans (Template.windowWord_spanned _ x)
  | channelSettings c =>
    have hset := setChannelSettings_settings (s := s) (c := c) (v := ChannelSettings.held x)
    show ((s.setChannelSettings c (ChannelSettings.held x)).settings.channels.get c).word = _
    rw [hset]
    exact (congrArg ChannelSettings.word (get_set_same _ c _)).trans (ChannelSettings.word_held (bne_iff_ne.mp h))
  | formShape c sl =>
    obtain ⟨hkind, -⟩ : x.extractLsb' 16 2 ≠ 3 ∧ x.extractLsb' 24 8 ≠ 0 := by simpa [ConfigItem.accepts] using h
    exact (congrArg (fun f => f.staged.shapeWord) (chan_writeForm_same c sl _)).trans (Form.shapeWord_shaped _ hkind)
  | formWidths c sl =>
    exact (congrArg (fun f => f.staged.widthsWord) (chan_writeForm_same c sl _)).trans (Form.widthsWord_widened _ x)
  | formCap c sl =>
    exact (congrArg (fun f => f.staged.capWord) (chan_writeForm_same c sl _)).trans
      (Form.capWord_capped _ (of_decide_eq_true h))
  | _ =>
    refine setWidth_extractLsb'_of_lt ?_
    simp only [ConfigItem.accepts, Bool.or_eq_true, Bool.and_eq_true, beq_iff_eq, decide_eq_true_eq] at h
    bv_omega

/-- A sensor's settings are seen by its own two items. -/
theorem itemWord_setSensorSettings {n : Fin 4} {c : SensorSettings}
    (hmode : .sensorMode n ≠ i → c.modeWord = (s.settings.sensors.get n).modeWord)
    (hgap : .sensorGap n ≠ i → c.gapWord = (s.settings.sensors.get n).gapWord) (h : j ≠ i) :
    (s.setSensorSettings n c).itemWord j = s.itemWord j := by
  cases j with
  | sensorMode m => exact get_set_congr SensorSettings.modeWord _ fun e => hmode (e ▸ h)
  | sensorGap m => exact get_set_congr SensorSettings.gapWord _ fun e => hgap (e ▸ h)
  | _ => rfl

/-- A template is seen by its own four items. -/
theorem itemWord_setTemplate {t : Fin 16} {c : Template}
    (horigins : .templateOrigins t ≠ i → c.origins = (s.template t).origins)
    (hselect : .templateSelect t ≠ i → c.selectWord = (s.template t).selectWord)
    (htiming : .templateTiming t ≠ i → c.timingWord = (s.template t).timingWord)
    (hwindow : .templateWindow t ≠ i → c.windowWord = (s.template t).windowWord) (h : j ≠ i) :
    (s.setTemplate t c).itemWord j = s.itemWord j := by
  cases j with
  | templateOrigins u => exact get_set_congr Template.origins _ fun e => horigins (e ▸ h)
  | templateSelect u => exact get_set_congr Template.selectWord _ fun e => hselect (e ▸ h)
  | templateTiming u => exact get_set_congr Template.timingWord _ fun e => htiming (e ▸ h)
  | templateWindow u => exact get_set_congr Template.windowWord _ fun e => hwindow (e ▸ h)
  | _ => rfl

/-- A form is seen by its own three items. -/
theorem itemWord_writeForm {c : Fin 4} {sl : Slot} {f : Form → Form}
    (hshape : .formShape c sl ≠ i → ∀ b, (f b).shapeWord = b.shapeWord)
    (hwidths : .formWidths c sl ≠ i → ∀ b, (f b).widthsWord = b.widthsWord)
    (hcap : .formCap c sl ≠ i → ∀ b, (f b).capWord = b.capWord) (h : j ≠ i) :
    (s.writeForm c sl f).itemWord j = s.itemWord j := by
  cases j with
  | formShape d sl' => exact staged_writeForm_congr Form.shapeWord fun e e' => hshape (e ▸ e' ▸ h)
  | formWidths d sl' => exact staged_writeForm_congr Form.widthsWord fun e e' => hwidths (e ▸ e' ▸ h)
  | formCap d sl' => exact staged_writeForm_congr Form.capWord fun e e' => hcap (e ▸ e' ▸ h)
  | _ => rfl

/-- The items show the settings and the staged forms. -/
theorem itemWord_of_slots {t : Station} (hset : t.settings = s.settings)
    (hslot : ∀ d sl, (t.chan d).slot sl = (s.chan d).slot sl) (j : ConfigItem) : t.itemWord j = s.itemWord j := by
  cases j <;> simp only [itemWord, hset, hslot]

/-- A channel's settings are seen by their own item. -/
theorem itemWord_setChannelSettings {c : Fin 4} {v : ChannelSettings} (hst : s.ctl.state = .halted)
    (h : j ≠ .channelSettings c) : (s.setChannelSettings c v).itemWord j = s.itemWord j := by
  refine (itemWord_of_slots (s := s.withChannel c v) setChannelSettings_settings
    (slot_setChannelSettings hst) j).trans ?_
  cases j with
  | channelSettings d => exact congrArg ChannelSettings.word (get_set_other _ (fun e => h (congrArg _ e)) _)
  | _ => rfl

/-- Every item but the one written shows what it showed (R185). -/
theorem itemWord_takenItem_other (hst : i.itemClass = .locked → s.ctl.state = .halted) (h : j ≠ i) :
    (s.takenItem i x).itemWord j = s.itemWord j := by
  cases i with
  | identity => rfl
  | void => rfl
  | stationNumber => cases j with | stationNumber => exact absurd rfl h | _ => rfl
  | bitRate => cases j with | bitRate => exact absurd rfl h | _ => rfl
  | encoderMode => cases j with | encoderMode => exact absurd rfl h | _ => rfl
  | prescale => cases j with | prescale => exact absurd rfl h | _ => rfl
  | skewTolerance => cases j with | skewTolerance => exact absurd rfl h | _ => rfl
  | joinWait => cases j with | joinWait => exact absurd rfl h | _ => rfl
  | markInterval => cases j with | markInterval => exact absurd rfl h | _ => rfl
  | trackHorizon => cases j with | trackHorizon => exact absurd rfl h | _ => rfl
  | claimHorizon => cases j with | claimHorizon => exact absurd rfl h | _ => rfl
  | attnThreshold => cases j with | attnThreshold => exact absurd rfl h | _ => rfl
  | sensorMode n => exact itemWord_setSensorSettings (absurd rfl) (fun _ => rfl) h
  | sensorGap n => exact itemWord_setSensorSettings (fun _ => rfl) (absurd rfl) h
  | templateOrigins t => exact itemWord_setTemplate (absurd rfl) (fun _ => rfl) (fun _ => rfl) (fun _ => rfl) h
  | templateSelect t => exact itemWord_setTemplate (fun _ => rfl) (absurd rfl) (fun _ => rfl) (fun _ => rfl) h
  | templateTiming t => exact itemWord_setTemplate (fun _ => rfl) (fun _ => rfl) (absurd rfl) (fun _ => rfl) h
  | templateWindow t => exact itemWord_setTemplate (fun _ => rfl) (fun _ => rfl) (fun _ => rfl) (absurd rfl) h
  | channelSettings c => exact itemWord_setChannelSettings (hst rfl) h
  | formShape c sl => exact itemWord_writeForm (absurd rfl) (fun _ _ => rfl) (fun _ _ => rfl) h
  | formWidths c sl => exact itemWord_writeForm (fun _ _ => rfl) (absurd rfl) (fun _ _ => rfl) h
  | formCap c sl => exact itemWord_writeForm (fun _ _ => rfl) (fun _ _ => rfl) (absurd rfl) h

/-! ## What a write leaves -/

theorem itemWord_portAnswers (a : Access) (m : Word) (i : ConfigItem) :
    (s.portAnswers a m).itemWord i = s.itemWord i :=
  itemWord_of_slots rfl (fun _ _ => rfl) i

theorem takenItem_unchanged (h : i.accepts x = true) :
    (s.takenItem i x).port = s.port ∧ (s.takenItem i x).pins = s.pins ∧ (s.takenItem i x).link = s.link ∧
    (s.takenItem i x).ctl = s.ctl ∧ (s.takenItem i x).sense = s.sense ∧ (s.takenItem i x).track = s.track ∧
    (s.takenItem i x).agenda = s.agenda ∧ (s.takenItem i x).claims = s.claims ∧
    (s.takenItem i x).claimSeq = s.claimSeq := by
  obtain ⟨⟨rf, sb, ch, ev, k, heq⟩, -⟩ := takeItem_frame ((s.takeItem_eq i x).trans (if_pos h))
  rw [heq]
  exact ⟨rfl, rfl, rfl, rfl, rfl, rfl, rfl, rfl, rfl⟩

/-- ENCODER_MODE takes the levels that stand as the reference, and PRESCALE clears the sub-count (R4). -/
theorem takenItem_pos (hst : i.itemClass = .locked → s.ctl.state = .halted) : (s.takenItem i x).pos =
    { s.pos with ref := if i = .encoderMode then s.pins.enc else s.pos.ref,
                 sub := if i = .prescale then 0 else s.pos.sub } := by
  cases i with
  | channelSettings c =>
    show (s.setChannelSettings c (ChannelSettings.held x)).pos = _
    rcases setChannelSettings_of_halted (c := c) (v := ChannelSettings.held x) (hst rfl) with h | ⟨ev, h⟩ <;>
      (rw [h]; rfl)
  | _ => rfl

/-- A write reaches a sequence or the events through a channel's settings alone (R160). -/
theorem takenItem_runs (h : ∀ c, i ≠ .channelSettings c) :
    (s.takenItem i x).events = s.events ∧ ∀ c, ((s.takenItem i x).chan c).run = (s.chan c).run := by
  cases i with
  | channelSettings c => exact absurd rfl (h c)
  | formShape c sl => exact ⟨rfl, fun d => run_writeForm c d sl _⟩
  | formWidths c sl => exact ⟨rfl, fun d => run_writeForm c d sl _⟩
  | formCap c sl => exact ⟨rfl, fun d => run_writeForm c d sl _⟩
  | _ => exact ⟨rfl, fun _ => rfl⟩

/-- A form slot as a write of fields by `f` leaves it (R145). -/
def writtenSlot (s : Station) (f : Form → Form) (b : FormSlot) : FormSlot :=
  { live := if s.ctl.state = .halted then f b.live else b.live, staged := f b.staged, pending := b.pending }

theorem writtenSlot_id (s : Station) (b : FormSlot) : s.writtenSlot id b = b := by
  unfold writtenSlot
  rw [id, id, ite_self]

theorem slot_writeForm (c d : Fin 4) (sl sl' : Slot) (f : Form → Form) :
    ∃ g, ((s.writeForm c sl f).chan d).slot sl' = s.writtenSlot g ((s.chan d).slot sl') := by
  by_cases h : d = c ∧ sl' = sl
  · obtain ⟨rfl, rfl⟩ := h
    exact ⟨f, chan_writeForm_same d sl' f⟩
  · refine ⟨id, Eq.trans ?_ (s.writtenSlot_id _).symm⟩
    rcases not_and_or.mp h with hd | hsl
    · rw [chan_writeForm_other hd]
    · by_cases hd : d = c
      · rw [hd, chan_writeForm_other_slot c hsl]
      · rw [chan_writeForm_other hd]

/-- Whatever the item, a slot is left as a write of some fields leaves it, of none where the item is not the slot's. -/
theorem slot_takenItem (hst : i.itemClass = .locked → s.ctl.state = .halted) (d : Fin 4) (sl : Slot) :
    ∃ g, ((s.takenItem i x).chan d).slot sl = s.writtenSlot g ((s.chan d).slot sl) := by
  cases i with
  | formShape c sl' => exact slot_writeForm c d sl' sl _
  | formWidths c sl' => exact slot_writeForm c d sl' sl _
  | formCap c sl' => exact slot_writeForm c d sl' sl _
  | channelSettings c => exact ⟨id, (slot_setChannelSettings (hst rfl) d sl).trans (s.writtenSlot_id _).symm⟩
  | _ => exact ⟨id, (s.writtenSlot_id _).symm⟩

/-- Items below 96 are no channel's (R186 to R188). -/
theorem takenItem_channels {n : BitVec 8} (h : n.toNat < 96) : (s.takenItem (itemOf n) x).channels = s.channels := by
  rcases itemOf_cases n with ⟨hn, hi⟩ | ⟨k, p, hp, hn, hi⟩ | ⟨k, p, hp, hn, hi⟩ | ⟨k, p, hp, hn, hi⟩ | ⟨hn, hi⟩
  · rw [hi]
    generalize n.toNat = m at hn
    interval_cases m <;> rfl
  · rw [hi]
    interval_cases p <;> rfl
  · rw [hi]
    interval_cases p <;> rfl
  · omega
  · omega

/-! ## What becomes of the channel's sequence (R160) -/

section

variable {c : Fin 4} {v : ChannelSettings} {r : Run}

theorem setChannelSettings_conditions :
    (s.setChannelSettings c v).inhibits c = (s.withChannel c v).inhibits c ∧
    (s.setChannelSettings c v).holds c = (s.withChannel c v).holds c := by
  obtain ⟨ch, ev, k, h⟩ := conditionsChanged_frame s (s.withChannel c v)
  show (conditionsChanged s (s.withChannel c v)).inhibits c = _ ∧ (conditionsChanged s (s.withChannel c v)).holds c = _
  rw [h]
  exact ⟨rfl, rfl⟩

theorem setChannelSettings_of_idle (hr : (s.chan c).run = none) : s.setChannelSettings c v = s.withChannel c v :=
  setChannelSettings_of_not_acts (auxActsOn_of_idle (s := s.withChannel c v) hr)

theorem setChannelSettings_of_kept (hr : (s.chan c).run = some r)
    (hin : s.inhibits c = true ∨ (s.withChannel c v).inhibits c = false)
    (hhold : r.phase = .hold → s.holds c = false ∨ (s.withChannel c v).holds c = true) :
    s.setChannelSettings c v = s.withChannel c v := by
  refine setChannelSettings_of_not_acts (Bool.eq_false_iff.mpr fun hacts => ?_)
  rcases (auxActsOn_of_run (s := s.withChannel c v) hr).mp hacts with ⟨hbefore, hafter⟩ | ⟨hp, hbefore, hafter⟩
  · exact hin.elim (Bool.eq_false_iff.mp hbefore) (Bool.eq_false_iff.mp · hafter)
  · exact (hhold hp).elim (Bool.eq_false_iff.mp · hbefore) (Bool.eq_false_iff.mp hafter)

theorem setChannelSettings_of_cut (hr : (s.chan c).run = some r) (hbefore : s.inhibits c = false)
    (hafter : (s.withChannel c v).inhibits c = true) : s.setChannelSettings c v =
      ((s.withChannel c v).setRun c none).addRecord
        { kind := .cut, item := r.item, channel := some c, reason := some r.phase.code } :=
  (setChannelSettings_of_inhibits ((auxActsOn_of_run (s := s.withChannel c v) hr).mpr (.inl ⟨hbefore, hafter⟩))
    hafter).trans (cutSequence_of_run hr)

theorem setChannelSettings_of_release (hst : s.ctl.state = .halted) (hr : (s.chan c).run = some r)
    (hp : r.phase = .hold) (hbefore : s.holds c = true) (hafter : (s.withChannel c v).holds c = false)
    (hin : (s.withChannel c v).inhibits c = false) :
    s.setChannelSettings c v = (s.withChannel c v).setRun c none := by
  have hacts := (auxActsOn_of_run (s := s.withChannel c v) hr).mpr (.inr ⟨hp, hbefore, hafter⟩)
  rw [setChannelSettings_of_not_inhibits hacts hin, releaseHold_of_hold (s := s.withChannel c v) hr hp,
    endSequence_of_no_chain (s := s.withChannel c v) (.inl hst)]

end

/-! ## The settings and forms by item number (R186 to R188) -/

theorem settings_takenItem_of_number {n m : BitVec 8} {u : Settings} (hu : (s.takenItem (itemOf m) x).settings = u)
    (hn : n = m) : (s.takenItem (itemOf n) x).settings = u := by
  rw [hn, hu]

theorem settings_takenItem_of_item {n : BitVec 8} {u : Settings} (hi : itemOf n = i) (hu : (s.takenItem i x).settings = u) :
    (s.takenItem (itemOf n) x).settings = u := by
  rw [hi, hu]

/-- The item of a form by its place among the channel's items, with what it does to a form. -/
theorem takenItem_form {n : BitVec 8} {k : Fin 4} {sl : Slot} {first : Nat} {put : Form → Form}
    (hfirst : first = 97 + 8 * k.val + (match sl with | .a => 0 | .b => 3))
    (h : n.toNat = first ∧ put = Form.shaped x ∨ n.toNat = first + 1 ∧ put = Form.widened x ∨
      n.toNat = first + 2 ∧ put = Form.capped x) : s.takenItem (itemOf n) x = s.writeForm k sl put := by
  cases sl with
  | a =>
    replace hfirst : first = 97 + 8 * k.val := hfirst
    rcases h with ⟨hn, rfl⟩ | ⟨hn, rfl⟩ | ⟨hn, rfl⟩
    · exact congrArg (fun i => s.takenItem i x) (itemOf_channel (p := 1) (by decide) (by omega))
    · exact congrArg (fun i => s.takenItem i x) (itemOf_channel (p := 2) (by decide) (by omega))
    · exact congrArg (fun i => s.takenItem i x) (itemOf_channel (p := 3) (by decide) (by omega))
  | b =>
    replace hfirst : first = 97 + 8 * k.val + 3 := hfirst
    rcases h with ⟨hn, rfl⟩ | ⟨hn, rfl⟩ | ⟨hn, rfl⟩
    · exact congrArg (fun i => s.takenItem i x) (itemOf_channel (p := 4) (by decide) (by omega))
    · exact congrArg (fun i => s.takenItem i x) (itemOf_channel (p := 5) (by decide) (by omega))
    · exact congrArg (fun i => s.takenItem i x) (itemOf_channel (p := 6) (by decide) (by omega))

end Station

/-- Settles O53: what the item takes is read off item by item, and a channel's sequence is followed through the change of
its conditions. -/
theorem configurationWritesTakeTheWord : Obligations.ConfigurationWritesTakeTheWord := by
  intro s n x hopen hacc
  have hlock : (itemOf n).itemClass = .locked → s.ctl.state = .halted := by
    intro hl
    rcases hopen with h | ⟨-, h⟩
    · rw [hl] at h
      cases h
    · exact h
  obtain ⟨hport, hpins, hlink, hctl, hsense, htrack, hagenda, hclaims, hseq⟩ :=
    Station.takenItem_unchanged (s := s.toStation) hacc
  have hslot := Station.slot_takenItem (s := s.toStation) (x := x) hlock
  refine ⟨{ s with toStation := (s.toStation.takenItem (itemOf n) x).portAnswers .ok 0 },
    exec_of_effect ((Station.configWrite_of_open hopen).trans (Station.writeItem_of_accepts hacc)),
    congrArg (fun p : ServicePort => { p with access := .ok, miso := 0 }) hport,
    (Station.itemWord_portAnswers _ _ _).trans (Station.itemWord_takenItem_same hacc),
    fun i hi => (Station.itemWord_portAnswers _ _ _).trans (Station.itemWord_takenItem_other hlock hi),
    rfl, hpins, hlink, hctl, hsense, htrack, hagenda, hclaims, hseq, Station.takenItem_pos hlock, Station.takenItem_runs,
    fun c sl => ?_, fun hst c sl => ?_, fun hst c sl hsame => ?_,
    Station.settings_takenItem_of_number rfl, Station.settings_takenItem_of_number rfl,
    Station.settings_takenItem_of_number rfl, Station.settings_takenItem_of_number rfl,
    Station.settings_takenItem_of_number rfl, Station.settings_takenItem_of_number rfl,
    Station.settings_takenItem_of_number rfl, Station.settings_takenItem_of_number rfl,
    Station.settings_takenItem_of_number rfl, Station.settings_takenItem_of_number rfl, ?_, ?_, ?_,
    Station.takenItem_channels, ?_, ?_⟩
  · obtain ⟨g, hg⟩ := hslot c sl
    exact (congrArg FormSlot.pending hg).trans rfl
  · obtain ⟨g, hg⟩ := hslot c sl
    exact (congrArg FormSlot.live hg).trans (if_neg hst)
  · obtain ⟨g, hg⟩ := hslot c sl
    refine ((congrArg FormSlot.live hg).trans (if_pos hst)).trans ?_
    rw [hsame]
    exact (congrArg FormSlot.staged hg).symm
  · rintro k _ _ rfl rfl
    exact ⟨fun hn => Station.settings_takenItem_of_item (itemOf_sensor (p := 0) (by decide) hn) rfl,
      fun hn => Station.settings_takenItem_of_item (itemOf_sensor (k := k) (p := 1) (by decide) (by omega)) rfl⟩
  · rintro k _ _ rfl rfl
    exact ⟨fun hn => Station.settings_takenItem_of_item (itemOf_template (p := 0) (by decide) hn) rfl,
      fun hn => Station.settings_takenItem_of_item (itemOf_template (k := k) (p := 1) (by decide) (by omega)) rfl,
      fun hn => Station.settings_takenItem_of_item (itemOf_template (k := k) (p := 2) (by decide) (by omega)) rfl,
      fun hn => Station.settings_takenItem_of_item (itemOf_template (k := k) (p := 3) (by decide) (by omega)) rfl⟩
  · intro k hn
    exact Station.settings_takenItem_of_item (itemOf_channel (p := 0) (by decide) hn) Station.setChannelSettings_settings
  · intro k sl first put hfirst h
    have hform := Station.takenItem_form (s := s.toStation) hfirst h
    dsimp only
    rw [hform]
    exact ⟨rfl, fun d hd => Station.chan_writeForm_other hd sl put, Station.run_writeForm k k sl put,
      fun sl' hsl => Station.chan_writeForm_other_slot k hsl put, Station.chan_writeForm_same k sl put⟩
  · intro c hi
    have htaken : s.toStation.takenItem (itemOf n) x = s.toStation.setChannelSettings c (ChannelSettings.held x) := by
      rw [hi]
      rfl
    have hst : s.ctl.state = .halted := hlock (by rw [hi]; rfl)
    obtain ⟨hinhibits, hholds⟩ :=
      Station.setChannelSettings_conditions (s := s.toStation) (c := c) (v := ChannelSettings.held x)
    dsimp only
    rw [htaken]
    refine ⟨fun d hd => Station.chan_setChannelSettings_other hst hd, fun hr => ?_, ?_⟩
    · rw [Station.setChannelSettings_of_idle hr]
      exact ⟨rfl, rfl⟩
    rintro r _ _ hr rfl rfl
    have hcut (hbefore : s.inhibits c = false)
        (hafter : (s.toStation.withChannel c (ChannelSettings.held x)).inhibits c = true) :=
      Station.setChannelSettings_of_cut hr hbefore hafter
    refine ⟨fun hin hhold => ?_, fun hbefore hafter _ => ?_, fun hp hbefore hafter hin => ?_,
      fun hp hbefore hin => ?_⟩
    · rw [Station.setChannelSettings_of_kept hr (hin.imp_right hinhibits.symm.trans)
        fun hp => (hhold hp).imp_right hholds.symm.trans]
      exact ⟨rfl, rfl⟩
    · rw [hcut hbefore (hinhibits.symm.trans hafter)]
      refine ⟨rfl, ?_⟩
      cases r.phase <;> rfl
    · rw [Station.setChannelSettings_of_release hst hr hp hbefore (hholds.symm.trans hafter)
        (hinhibits.symm.trans hin)]
      exact ⟨rfl, rfl⟩
    · rw [hcut (Station.not_inhibits_of_holds rfl hbefore) (hinhibits.symm.trans hin)]
      refine ⟨rfl, .inr ?_⟩
      cases r.phase <;> rfl

end Sys2Proof.Machine

/-! PROOF. The service port: the step of a waiting command, device reset by its code, the registers and items after it, and
the transactions from their bytes to what they do. -/

namespace Sys2Proof.Machine

/-- Settles O1: the front command is the step's. -/
theorem stepRunsTheFrontCommand : Obligations.StepRunsTheFrontCommand := fun _ _ _ => rfl

/-! ## DEVICE_RESET by a write (R189) -/

namespace Station

theorem writeDeviceReset_of_code (s : Station) : s.writeDeviceReset 0x000000A5#32 = resetAt s.presentLevels s.ties :=
  if_pos rfl

theorem writeDeviceReset_of_other {s : Station} {x : Word} (h : x ≠ 0x000000A5#32) :
    s.writeDeviceReset x = s.portAnswers .refusedRange 0 := if_neg h

end Station

/-- Settles O6: the code alone resets. -/
theorem resetCodeResetsTheDevice : Obligations.ResetCodeResetsTheDevice :=
  ⟨fun s => exec_of_effect s.toStation.writeDeviceReset_of_code,
    fun _ _ h => exec_of_effect (Station.writeDeviceReset_of_other h), fun _ => rfl⟩

/-! ## Registers and items after device reset -/

theorem CommandResult.word_toNat (r : CommandResult) :
    r.word.toNat = r.code.code.toNat + 2 ^ 8 * r.command.toNat + 2 ^ 16 * r.detail.toNat := by
  simp only [CommandResult.word, toNat_append_add]
  omega

theorem TableSel.word_toNat (t : TableSel) : t.word.toNat = t.collection.code.toNat + 2 ^ 8 * t.index.toNat := by
  simp only [TableSel.word, toNat_append_add, BitVec.toNat_ofNat]
  omega

namespace Station

variable (levels : InputLevels) (ties : Nat)

theorem resetAt_sensorSettings (n : Fin 4) : (resetAt levels ties).settings.sensors.get n = SensorSettings.reset :=
  Vector.getElem_replicate n.isLt

theorem resetAt_template (t : Fin 16) : (resetAt levels ties).settings.templates.get t = Template.reset :=
  Vector.getElem_replicate t.isLt

theorem resetAt_registerWord (n : BitVec 8) : (resetAt levels ties).registerWord n =
    if n = 0 then 0x03200101#32 else if n = 1 then 0x00000070#32 else 0 := by
  by_cases h0 : n = 0
  · rw [h0]
    rfl
  by_cases h1 : n = 1
  · rw [h1]
    exact BitVec.eq_of_toNat_eq (statusWord_toNat _ (Nat.zero_le _))
  rw [if_neg h0, if_neg h1]
  unfold registerWord
  split
  case h_1 h => exact absurd (BitVec.eq_of_toNat_eq h) h0
  case h_2 h => exact absurd (BitVec.eq_of_toNat_eq h) h1
  case h_3 => exact BitVec.eq_of_toNat_eq (positionWord_toNat _)
  case h_9 => exact BitVec.eq_of_toNat_eq (CommandResult.word_toNat _)
  case h_10 => exact BitVec.eq_of_toNat_eq (TableSel.word_toNat _)
  case h_15 => exact BitVec.eq_of_toNat_eq (fillWord_toNat _ (resetAt_withinCapacities levels ties))
  all_goals rfl

end Station

theorem toNat_itemNumber {m : Nat} (h : m < 256) : (BitVec.ofNat 8 m).toNat = m := by
  rw [BitVec.toNat_ofNat, Nat.mod_eq_of_lt h]

namespace Station

variable (levels : InputLevels) (ties : Nat)

theorem resetAt_stationItem {n : BitVec 8} (h : n.toNat < 16) : (resetAt levels ties).itemWord (itemOf n) =
    if n = 0 then 0x03200101#32 else if n = 2 then 2 else if n = 4 then 1 else if n = 5 then 8 else if n = 6 then 500
    else if n = 7 then 200 else if n = 8 then 131072 else if n = 9 then 65536 else if n = 10 then 1 else 0 := by
  obtain ⟨m, hm, rfl⟩ : ∃ m, m < 16 ∧ n = BitVec.ofNat 8 m :=
    ⟨n.toNat, h, by rw [BitVec.ofNat_toNat, BitVec.setWidth_eq]⟩
  clear h
  interval_cases m <;> rfl

theorem resetAt_sensorItem {n : Fin 4} {m p : Nat} (hp : p < 2) (hm : m = 16 + 4 * n.val + p) :
    (resetAt levels ties).itemWord (itemOf (BitVec.ofNat 8 m)) = if p = 0 then 0 else 64 := by
  rw [itemOf_sensor (k := n) (p := p) (by omega) ((toNat_itemNumber (by omega)).trans hm)]
  interval_cases p
  · exact congrArg SensorSettings.modeWord (resetAt_sensorSettings levels ties n)
  · exact congrArg SensorSettings.gapWord (resetAt_sensorSettings levels ties n)

theorem resetAt_templateItem {t : Fin 16} {m p : Nat} (hp : p < 4) (hm : m = 32 + 4 * t.val + p) :
    (resetAt levels ties).itemWord (itemOf (BitVec.ofNat 8 m)) =
      if p = 0 then 0xFFFFFFFF#32 else if p = 1 then 0xFFFF00F0#32 else if p = 2 then 0 else 0x00010000#32 := by
  rw [itemOf_template (k := t) hp ((toNat_itemNumber (by omega)).trans hm)]
  have ht := resetAt_template levels ties t
  interval_cases p
  · exact congrArg Template.origins ht
  · exact congrArg Template.selectWord ht
  · exact congrArg Template.timingWord ht
  · exact congrArg Template.windowWord ht

theorem resetAt_channelItem {c : Fin 4} {m p : Nat} (hp : p < 7) (hm : m = 96 + 8 * c.val + p) :
    (resetAt levels ties).itemWord (itemOf (BitVec.ofNat 8 m)) =
      if p = 1 ∨ p = 4 then 0x01000000#32 else if p = 2 ∨ p = 5 then 0x00640064#32 else 0 := by
  rw [itemOf_channel (k := c) (p := p) (by omega) ((toNat_itemNumber (by omega)).trans hm)]
  have hc := resetAt_chan levels ties c
  interval_cases p
  · exact congrArg ChannelSettings.word (resetAt_channelSettings levels ties c)
  · exact congrArg (fun ch => (ch.slot .a).staged.shapeWord) hc
  · exact congrArg (fun ch => (ch.slot .a).staged.widthsWord) hc
  · exact congrArg (fun ch => (ch.slot .a).staged.capWord) hc
  · exact congrArg (fun ch => (ch.slot .b).staged.shapeWord) hc
  · exact congrArg (fun ch => (ch.slot .b).staged.widthsWord) hc
  · exact congrArg (fun ch => (ch.slot .b).staged.capWord) hc

end Station

/-- Settles O5: the words of a station whose settings and forms are all at their defaults. -/
theorem registersAndItemsAfterDeviceReset : Obligations.RegistersAndItemsAfterDeviceReset := by
  intro levels ties
  refine ⟨Station.resetAt_registerWord levels ties, fun n hn => Station.resetAt_stationItem levels ties hn,
    fun n => ⟨Station.resetAt_sensorItem levels ties (p := 0) (by decide) rfl,
      Station.resetAt_sensorItem levels ties (n := n) (p := 1) (by decide) (by omega)⟩,
    fun t => ⟨Station.resetAt_templateItem levels ties (p := 0) (by decide) rfl,
      Station.resetAt_templateItem levels ties (t := t) (p := 1) (by decide) (by omega),
      Station.resetAt_templateItem levels ties (t := t) (p := 2) (by decide) (by omega),
      Station.resetAt_templateItem levels ties (t := t) (p := 3) (by decide) (by omega)⟩,
    fun c => ⟨Station.resetAt_channelItem levels ties (p := 0) (by decide) rfl, fun k hk => ?_, fun k hk => ?_,
      fun k hk => ?_⟩⟩
  · have hk' : k = 1 ∨ k = 4 := by simpa using hk
    exact (Station.resetAt_channelItem levels ties (c := c) (by omega) rfl).trans (if_pos hk')
  · have hk' : k = 2 ∨ k = 5 := by simpa using hk
    exact (Station.resetAt_channelItem levels ties (c := c) (by omega) rfl).trans
      ((if_neg (by omega)).trans (if_pos hk'))
  · have hk' : k = 3 ∨ k = 6 := by simpa using hk
    exact (Station.resetAt_channelItem levels ties (c := c) (by omega) rfl).trans
      ((if_neg (by omega)).trans (if_neg (by omega)))

/-! ## From bytes to a command (R175, R178, R180) -/

theorem transactionCommand_of_short {bytes : List (BitVec 8)} (h : bytes.length < 6) :
    transactionCommand bytes = none := by
  fun_cases transactionCommand bytes
  · simp only [List.length_cons] at h
    omega
  all_goals rfl

theorem receiveBytes_of_short {bytes : List (BitVec 8)} (h : bytes.length < 6) (s : State) : s.receiveBytes bytes = s := by
  unfold State.receiveBytes
  rw [transactionCommand_of_short h]

theorem dataWord_of_toNat {b2 b3 b4 b5 : BitVec 8} {x : Word}
    (h : x.toNat = b2.toNat * 2 ^ 24 + b3.toNat * 2 ^ 16 + b4.toNat * 2 ^ 8 + b5.toNat) : x = dataWord b2 b3 b4 b5 := by
  apply BitVec.eq_of_toNat_eq
  simp only [dataWord, toNat_append_add]
  rw [h]
  ring

theorem ne_of_toNat_ne {n : BitVec 8} (k : BitVec 8) (h : n.toNat ≠ k.toNat) : n ≠ k := fun e => h (e ▸ rfl)

/-- A code that names no command is 0 or above 10 (R180). -/
theorem commandOfCode_wellFormed (code : BitVec 8) : (commandOfCode code).wellFormed = true := by
  unfold commandOfCode
  split
  case h_11 =>
    simp only [imp_false] at *
    show (code == 0 || decide (11 ≤ code.toNat)) = true
    rw [Bool.or_eq_true, beq_iff_eq, decide_eq_true_eq]
    by_cases h : code.toNat = 0
    · exact .inl (BitVec.eq_of_toNat_eq h)
    · exact .inr (by omega)
  all_goals rfl

theorem commandOfRegister_wellFormed (number : BitVec 8) (x : Word) : (commandOfRegister number x).wellFormed = true := by
  unfold commandOfRegister
  split
  · exact commandOfCode_wellFormed _
  · rfl
  · rfl
  · next h3 h9 h15 =>
    show (!(number == 3 || number == 9 || number == 15)) = true
    rw [beq_false_of_ne (ne_of_toNat_ne 3 h3), beq_false_of_ne (ne_of_toNat_ne 9 h9),
      beq_false_of_ne (ne_of_toNat_ne 15 h15)]
    rfl

theorem commandOfTransaction_wellFormed {type : BitVec 8} (h : type ≠ 0) (number : BitVec 8) (x : Word) :
    (commandOfTransaction type number x).wellFormed = true := by
  unfold commandOfTransaction
  split
  · exact commandOfRegister_wellFormed number x
  · rfl
  · rfl
  · next h1 h2 h3 =>
    simp only [imp_false] at h1 h2 h3
    have h0 : type.toNat ≠ 0 := fun e => h (BitVec.eq_of_toNat_eq e)
    exact decide_eq_true (by omega)

/-! ## What the command of a transaction does -/

theorem effectOf_commandOfCode (code : BitVec 8) (s : Station) : effectOf (commandOfCode code) s = s.commandWrite code := by
  unfold commandOfCode
  split
  case h_11 => rfl
  all_goals
    next h =>
      unfold Station.commandWrite
      rw [h]
      rfl

theorem effectOf_commandOfRegister (number : BitVec 8) (x : Word) (s : Station) :
    effectOf (commandOfRegister number x) s = s.registerWrite number x := by
  unfold commandOfRegister
  split
  case h_4 => rfl
  case h_1 h =>
    unfold Station.registerWrite
    rw [h]
    exact effectOf_commandOfCode _ s
  all_goals
    next h =>
      unfold Station.registerWrite
      rw [h]
      rfl

theorem effectOf_commandOfTransaction (type number : BitVec 8) (x : Word) (s : Station) :
    effectOf (commandOfTransaction type number x) s = s.transaction type number x := by
  unfold commandOfTransaction
  split
  case h_4 => rfl
  case h_1 h =>
    unfold Station.transaction
    rw [h]
    exact effectOf_commandOfRegister number x s
  all_goals
    next h =>
      unfold Station.transaction
      rw [h]
      rfl

theorem transaction_eq (type number : BitVec 8) (x : Word) (s : Station) : s.transaction type number x =
    if type = 0 then s.registerRead number else if type = 1 then s.registerWrite number x
    else if type = 2 then s.configRead number else if type = 3 then s.configWrite number x
    else s.portAnswers .refusedVoid 0 := by
  unfold Station.transaction
  split
  · next h => rw [if_pos (BitVec.eq_of_toNat_eq h)]
  · next h =>
    obtain rfl : type = 1 := BitVec.eq_of_toNat_eq h
    rfl
  · next h =>
    obtain rfl : type = 2 := BitVec.eq_of_toNat_eq h
    rfl
  · next h =>
    obtain rfl : type = 3 := BitVec.eq_of_toNat_eq h
    rfl
  · next h0 h1 h2 h3 =>
    rw [if_neg (ne_of_toNat_ne 0 h0), if_neg (ne_of_toNat_ne 1 h1), if_neg (ne_of_toNat_ne 2 h2),
      if_neg (ne_of_toNat_ne 3 h3)]

/-! ## MISO (R175, R176) -/

theorem bytes_of_word (w : Word) :
    (w.extractLsb' 24 8 ++ w.extractLsb' 16 8 ++ w.extractLsb' 8 8 ++ w.extractLsb' 0 8 : BitVec 32) = w :=
  (((MaskedBits.field_top 24 8 rfl).field 16 8 rfl |>.field 8 8 rfl |>.field 0 8 rfl).word rfl).trans (Word.and_full w)

theorem capturedWord_eq (type number : BitVec 8) (s : Station) : s.capturedWord type number =
    if type = 0 then s.registerWord number else if type = 2 then s.itemWord (itemOf number) else 0 := by
  unfold Station.capturedWord
  split
  · next h => rw [if_pos (BitVec.eq_of_toNat_eq h)]
  · next h =>
    obtain rfl : type = 2 := BitVec.eq_of_toNat_eq h
    rfl
  · next h0 h2 =>
    rw [if_neg (ne_of_toNat_ne 0 h0), if_neg (ne_of_toNat_ne 2 h2)]

/-! ## Unassigned numbers (R178), void types (R175) -/

theorem registerWord_unassigned {n : BitVec 8} (h : 16 ≤ n.toNat) (s : Station) : s.registerWord n = 0 := by
  unfold Station.registerWord
  split
  case h_16 => rfl
  all_goals omega

theorem registerWrite_unassigned {n : BitVec 8} (h : 16 ≤ n.toNat) (x : Word) (s : Station) :
    s.registerWrite n x = s.portAnswers .refusedVoid 0 := by
  unfold Station.registerWrite
  split
  case h_17 => rfl
  all_goals omega

theorem transaction_void {type : BitVec 8} (h : 4 ≤ type.toNat) (number : BitVec 8) (x : Word) (s : Station) :
    s.transaction type number x = s.portAnswers .refusedVoid 0 := by
  unfold Station.transaction
  split
  case h_5 => rfl
  all_goals omega

/-- Settles O50: the bytes give the command, and the command's effect is the transaction's; the registers and the records
are then read and written number by number. -/
theorem registerWritesByNumber : Obligations.RegisterWritesByNumber := by
  refine ⟨fun s _ h => receiveBytes_of_short h s, ?_, fun s k => ⟨?_, ?_, ?_, ?_, ?_, ?_⟩, fun s => ?_, fun s x => ?_⟩
  · rintro s type number b2 b3 b4 b5 rest x _ hx rfl
    obtain rfl := dataWord_of_toNat hx
    refine ⟨rfl, fun h => commandOfTransaction_wellFormed h number _,
      exec_of_effect ((effectOf_commandOfTransaction ..).trans (transaction_eq ..)), rfl,
      fun k hk => if_neg (by omega), (bytes_of_word _).trans (capturedWord_eq ..)⟩
  · intro i h
    exact congrArg (fun o => (o.map Item.record).getD Record4.zero) h
  · intro e h
    exact congrArg (fun o => (o.map Entry.record).getD Record4.zero) h
  · intro c h
    exact congrArg (fun o => (o.map Claim.record).getD Record4.zero) h
  · intro e h
    exact congrArg (fun o => (o.map TxEntry.record).getD Record4.zero) h
  · intro e h
    exact congrArg (fun o => (o.map EventRecord.record).getD Record4.zero) h
  · intro c h
    exact Station.recordAt_of_length_le (c := c) h
  · refine ⟨rfl, BitVec.toNat_setWidth_of_le (by decide), rfl, rfl, rfl, rfl, (CommandResult.word_toNat _).trans ?_,
      (TableSel.word_toNat _).trans ?_, rfl, rfl, rfl, rfl, rfl, fun n h => registerWord_unassigned h s⟩
    · cases s.port.result.code <;> rfl
    · cases s.port.sel.collection <;> rfl
  · refine ⟨?_, fun h => exec_of_effect (Station.writeTableSel_of_le h), rfl, rfl, rfl, rfl, ?_,
      fun n h => exec_of_effect (registerWrite_unassigned h x s.toStation),
      fun type number h => exec_of_effect (transaction_void h number x s.toStation)⟩
    · rintro c _ hc rfl
      refine exec_of_effect (Station.writeTableSel_of_code (hc.trans ?_))
      cases c <;> rfl
    · intro n hn
      simp only [List.mem_cons, List.not_mem_nil, or_false] at hn
      rcases hn with rfl | rfl | rfl | rfl | rfl | rfl | rfl | rfl | rfl <;> rfl

end Sys2Proof.Machine
